-- ==== Sys2Proof/Word.lean ====
section
/-! DEFINITION. The types of the values the stopwatch core holds and exposes (spec R5, R6, R10, R40, R47). -/

namespace Sys2Proof

/-- The input word `in[3:0]` of one tick (R40). -/
abbrev InputWord := BitVec 4

/-- A byte of a stored script: one input word each (the model's own layout, log 4). -/
abbrev Byte := BitVec 8

/-- A value of the `seconds` register: 0 to 59 and nothing else. The encodings 60 to 63 of the 6-bit register
are no values of this type, as R86 asks (D5, U3; log 6). -/
abbrev Seconds := Fin 60

/-- A value of the `minutes` register: all 256 encodings are legal (R13). -/
abbrev Minutes := BitVec 8

/-- A value of the `status` output bus (R45). -/
abbrev StatusCode := BitVec 2

end Sys2Proof
end

