-- ==== Sys2Proof/Syntax.lean ====
section
/-! DEFINITION. The tick operations, the four control inputs, and the lines of a stimulus script
(spec 30_encoding.md R40, R42, R50, R51). -/

namespace Sys2Proof

/-- The four control inputs of one tick as booleans, `true` = asserted (R40, R41). -/
structure Inputs where
  /-- True while the active-low master reset line is held low (R41). -/
  masterResetActive : Bool
  localReset : Bool
  start : Bool
  stop : Bool
deriving DecidableEq, Repr

/-- A tick operation, one constructor per row of the operation table (R42). An operand is a bit of the
input word that the row's pattern leaves open; the operation ignores it (log 7). -/
inductive Instr where
  /-- MRST, `in = 1lst` (R101). -/
  | mrst (localReset start stop : Bool)
  /-- LRST, `in = 01st` (R102). -/
  | lrst (start stop : Bool)
  /-- START, `in = 0010` (R103). -/
  | start
  /-- STOP, `in = 0001` (R104). -/
  | stop
  /-- STARTSTOP, `in = 0011` (R105). -/
  | startstop
  /-- HOLD, `in = 0000` (R106). -/
  | hold
deriving DecidableEq, Repr

/-- The `<op>` of a script line (R50). -/
inductive ScriptOp where
  | mrst
  | lrst
  | start
  | stop
  | startstop
  | hold
  /-- `IN h`, with `h` one hexadecimal digit. -/
  | inHex (h : Nat)
deriving DecidableEq, Repr

/-- The operations a `PULSE` may name (R51). -/
inductive PulseOp where
  | start
  | stop
  | lrst
deriving DecidableEq, Repr

/-- One line of a stimulus script: an operation with a repeat count, or a pseudo-operation (R50, R51). -/
inductive ScriptLine where
  /-- `<op> * count`; a line without a count is `count = 1`. -/
  | op (o : ScriptOp) (count : Nat)
  /-- `WAIT n`. -/
  | wait (n : Nat)
  /-- `PULSE START`, `PULSE STOP`, `PULSE LRST`. -/
  | pulse (p : PulseOp)
  /-- `RESET n`. -/
  | resetFor (n : Nat)
deriving DecidableEq, Repr

end Sys2Proof
end

