-- ==== Sys2Proof/Machine/State.lean ====
section
/-! DEFINITION. The state: the device's three registers (spec 10_state.md R10), and beside them the host's side
of the interface (spec 44_driver_protocol.md), which no function of the device reads. -/

namespace Sys2Proof.Machine

/-- The states of the Control FSM: a closed enumeration (R11). -/
inductive ControlState where
  | idle
  | running
  | paused
deriving DecidableEq, Repr

/-- The architectural state of the device: exactly these three registers (R10). -/
structure Device where
  /-- The Control FSM's register (R11). -/
  state : ControlState
  /-- The second counter (R12). -/
  seconds : Seconds
  /-- The minute counter (R13). -/
  minutes : Minutes
deriving DecidableEq, Repr

/-- The host's side of the interface: what the Driver holds. It is no state of the device (R14, R21; log 1). -/
structure Environment where
  /-- The levels on the four control input lines (R121, R122). -/
  lines : Inputs
  /-- The input words the Driver has still to present, oldest first (R50). -/
  script : List InputWord
  /-- The Driver's diagnostic tick counter (R130). -/
  ticks : Nat
deriving DecidableEq, Repr

/-- The device and its environment. -/
structure State where
  dev : Device
  env : Environment
deriving DecidableEq, Repr

/-- Why the device can stop with a fault: no reason exists (R140: "the device raises none"; R107), so the type
has no constructor and raising a fault cannot be written. Safe: the spec rules faults out (log 17). -/
inductive Fault
deriving DecidableEq, Repr

/-- Why an operation can be refused. The spec gives no reason (R107: the device cannot refuse an input). -/
inductive Refusal where
  /-- An operation without a meaning in the model. No arm of `exec` answers with it (log 17). Safe: the
  model would stop where the device goes on. -/
  | notModelled (mnemonic : String)
deriving DecidableEq, Repr

/-- All inputs deasserted (R23). -/
def inputsDeasserted : Inputs where
  masterResetActive := false
  localReset := false
  start := false
  stop := false

/-- `(Idle, 0, 0)`: the power-up state of the device, and the state either reset forces (R22). -/
def Device.powerUp : Device where
  state := .idle
  seconds := 0
  minutes := 0

/-- The machine at power-up: the device in `(Idle, 0, 0)` (R22, R160), all inputs deasserted (R23), no script
placed (log 3), no tick counted (R130). -/
def State.reset : State where
  dev := Device.powerUp
  env := { lines := inputsDeasserted, script := [], ticks := 0 }

end Sys2Proof.Machine
end

