-- ==== Sys2Proof/Machine/Flags.lean ====
section
/-! DEFINITION. The derived signals of one tick: combinational functions of the pre-edge registers and the
inputs, never stored (spec R15, R18), and the encodings of the control state (R45, R46). -/

namespace Sys2Proof.Machine

/-- `enable = (state == Running)`, from the pre-edge state alone (R61). -/
def enable : ControlState → Bool
  | .idle => false
  | .running => true
  | .paused => false

/-- `clear = master_reset_active || local_reset` (R68; log 9). -/
def clear (i : Inputs) : Bool := i.masterResetActive || i.localReset

/-- `overflow_pulse = !clear && enable && (seconds == 59)`, from the pre-edge value (R82). -/
def overflowPulse (clr en : Bool) (seconds : Seconds) : Bool := !clr && en && seconds == 59

/-- The next state of the Control FSM, in the priority order of R62. -/
def nextState (i : Inputs) (st : ControlState) : ControlState :=
  if i.masterResetActive then .idle
  else if i.localReset then .idle
  else match st with
    | .idle => if i.start then .running else .idle
    | .running => if i.stop then .paused else .running
    | .paused => if i.start then .running else .paused

/-- The status code of a control state (R45, R67). -/
def statusCode : ControlState → StatusCode
  | .idle => 0
  | .running => 1
  | .paused => 2

/-- The control state that a 2-bit encoding stands for; `0b11` encodes no state (R46, U2). -/
def stateOfCode (c : StatusCode) : Option ControlState :=
  if c = 0 then some .idle
  else if c = 1 then some .running
  else if c = 2 then some .paused
  else none

/-- A tick is counted when `enable && !clear` holds at its edge (R110). -/
def counted (i : Inputs) (d : Device) : Bool := enable d.state && !clear i

/-- The elapsed count `T = 60 × minutes + seconds` (R110). -/
def elapsed (d : Device) : Nat := 60 * d.minutes.toNat + d.seconds.val

end Sys2Proof.Machine
end

