-- ==== Sys2Proof/WellFormed.lean ====
section
/-! DEFINITION. Which terms are well formed. Every tick operation is (spec R43: all 16 input words are legal in
all states, "a decoder ... needs no invalid verdict"); a script line has two checks (R50, R51). -/

namespace Sys2Proof

/-- Every operation is well formed: its fields are single bits and no word is reserved (R43). -/
def Instr.wf : Instr → Bool
  | .mrst _ _ _ => true
  | .lrst _ _ => true
  | .start => true
  | .stop => true
  | .startstop => true
  | .hold => true

/-- `IN h` takes one hexadecimal digit, 0 to F (R50). -/
def ScriptOp.wf : ScriptOp → Bool
  | .mrst => true
  | .lrst => true
  | .start => true
  | .stop => true
  | .startstop => true
  | .hold => true
  | .inHex h => decide (h < 16)

/-- `RESET n` has `n >= 1` (R51); a count or a wait may be 0, which performs no tick (R121; log 19). -/
def ScriptLine.wf : ScriptLine → Bool
  | .op o _ => o.wf
  | .wait _ => true
  | .pulse _ => true
  | .resetFor n => decide (1 ≤ n)

end Sys2Proof
end

