-- ==== Sys2Proof/Decode.lean ====
section
/-! DEFINITION. The decoder and the encoder of input words (spec 30_encoding.md R40 to R43), of scripts stored
as bytes (the model's own layout, log 4), and the expansion of script lines (R50, R51). -/

namespace Sys2Proof

/-- The fields of an input word: bit 3 `master_reset_active`, bit 2 `local_reset`, bit 1 `start`, bit 0 `stop`
(R40). -/
def fieldsOf (w : InputWord) : Inputs where
  masterResetActive := w.getLsbD 3
  localReset := w.getLsbD 2
  start := w.getLsbD 1
  stop := w.getLsbD 0

/-- `in[3:0] = {master_reset_active, local_reset, start, stop}` (R40). -/
def wordOf (i : Inputs) : InputWord :=
  BitVec.ofBool i.masterResetActive ++ BitVec.ofBool i.localReset ++ BitVec.ofBool i.start
    ++ BitVec.ofBool i.stop

/-- A row of the operation table: a word belongs to the row when `(w & mask) == pattern` (R42). -/
structure OpRow where
  mnemonic : String
  mask : InputWord
  pattern : InputWord
deriving DecidableEq, Repr

/-- Whether the word belongs to the row (R42). -/
def OpRow.has (r : OpRow) (w : InputWord) : Bool := w &&& r.mask == r.pattern

def rowMrst : OpRow := { mnemonic := "MRST", mask := 0x8, pattern := 0x8 }
def rowLrst : OpRow := { mnemonic := "LRST", mask := 0xC, pattern := 0x4 }
def rowStart : OpRow := { mnemonic := "START", mask := 0xF, pattern := 0x2 }
def rowStop : OpRow := { mnemonic := "STOP", mask := 0xF, pattern := 0x1 }
def rowStartstop : OpRow := { mnemonic := "STARTSTOP", mask := 0xF, pattern := 0x3 }
def rowHold : OpRow := { mnemonic := "HOLD", mask := 0xF, pattern := 0x0 }

/-- The six rows in their order of priority (R42). -/
def opTable : List OpRow := [rowMrst, rowLrst, rowStart, rowStop, rowStartstop, rowHold]

/-- The operation an input word selects: the first row it belongs to. Total (R42, R43): the last arm is taken
by the word 0 alone, which `rowHold` has (`test_decode_hold_only_zero`). -/
def decodeWord (w : InputWord) : Instr :=
  if rowMrst.has w then .mrst (w.getLsbD 2) (w.getLsbD 1) (w.getLsbD 0)
  else if rowLrst.has w then .lrst (w.getLsbD 1) (w.getLsbD 0)
  else if rowStart.has w then .start
  else if rowStop.has w then .stop
  else if rowStartstop.has w then .startstop
  else .hold

/-- Why a byte string is no script. -/
inductive DecodeError where
  /-- No byte is left to decode. -/
  | endOfScript
  /-- The byte's value is above 15, so it is no 4-bit input word (log 4). -/
  | notAnInputWord (b : Byte)
deriving DecidableEq, Repr

/-- The operation held by one byte of a stored script (log 4). -/
def decodeByte (b : Byte) : Except DecodeError Instr :=
  if b.toNat < 16 then .ok (decodeWord (b.setWidth 4)) else .error (.notAnInputWord b)

/-- The first operation of a stored script, and the bytes after it. -/
def decode : List Byte → Except DecodeError (Instr × List Byte)
  | [] => .error .endOfScript
  | b :: rest =>
    match decodeByte b with
    | .ok i => .ok (i, rest)
    | .error e => .error e

/-- All the operations of a stored script. -/
def decodeScript : List Byte → Except DecodeError (List Instr)
  | [] => .ok []
  | b :: rest =>
    match decodeByte b with
    | .error e => .error e
    | .ok i =>
      match decodeScript rest with
      | .error e => .error e
      | .ok is => .ok (i :: is)

/-- The bytes of an instruction whose bits are `w`, least significant byte first. -/
def tableBytes (nbits w : Nat) : List Byte :=
  (List.range ((nbits + 7) / 8)).map fun k => BitVec.ofNat 8 (w >>> (8 * k))

/-- What the decoder reads from an instruction of `nbits` bits whose bits are `w`. The one byte of an operation
may be followed by zeros only. -/
def decodeTableWord (nbits w : Nat) : Option Instr :=
  match decode (tableBytes nbits w) with
  | .ok (i, rest) => if rest.all (fun b => b == 0) then some i else none
  | .error _ => none

/-- The input word whose number is `w`, where there is one (R40: the word has one length, 4 bits). -/
def inputWordOfNat (w : Nat) : Option InputWord :=
  if w < 16 then some (BitVec.ofNat 4 w) else none

/-- The row of the operation table an operation stands for (R42). -/
def Instr.row : Instr → OpRow
  | .mrst _ _ _ => rowMrst
  | .lrst _ _ => rowLrst
  | .start => rowStart
  | .stop => rowStop
  | .startstop => rowStartstop
  | .hold => rowHold

/-- The input word of an operation, from the patterns of the operation table (R42). -/
def encodeWord : Instr → InputWord
  | .mrst l s t => BitVec.ofBool true ++ BitVec.ofBool l ++ BitVec.ofBool s ++ BitVec.ofBool t
  | .lrst s t => 0b01#2 ++ BitVec.ofBool s ++ BitVec.ofBool t
  | .start => 0b0010
  | .stop => 0b0001
  | .startstop => 0b0011
  | .hold => 0b0000

/-- The byte of an operation in a stored script (log 4). -/
def encode (i : Instr) : List Byte := [(encodeWord i).setWidth 8]

/-- The bytes of a script (R50: "one hexadecimal digit per tick"). -/
def encodeScript (is : List Instr) : List Byte := is.flatMap encode

/-- The word an `<op>` presents: `MRST` 8, `LRST` 4, `START` 2, `STOP` 1, `STARTSTOP` 3, `HOLD` 0, `IN h` the
word `h` (R50). -/
def ScriptOp.word : ScriptOp → Option InputWord
  | .mrst => some 0x8
  | .lrst => some 0x4
  | .start => some 0x2
  | .stop => some 0x1
  | .startstop => some 0x3
  | .hold => some 0x0
  | .inHex h => inputWordOfNat h

/-- The word a `PULSE` presents for its one tick (R51). -/
def PulseOp.word : PulseOp → InputWord
  | .start => 0x2
  | .stop => 0x1
  | .lrst => 0x4

/-- The input words of a script line (R50, R51); none where the line is ill formed. The deassertion that ends a
pulse is implicit in the next line (R51, D18). -/
def ScriptLine.expand : ScriptLine → Option (List InputWord)
  | .op o count => o.word.map (List.replicate count)
  | .wait n => some (List.replicate n 0x0)
  | .pulse p => some [p.word]
  | .resetFor n => if 1 ≤ n then some (List.replicate n 0x8) else none

/-- The input words of a whole script, its lines executed top to bottom (R50). -/
def expandScript : List ScriptLine → Option (List InputWord)
  | [] => some []
  | line :: rest =>
    match line.expand, expandScript rest with
    | some ws, some more => some (ws ++ more)
    | _, _ => none

end Sys2Proof
end

