-- ==== Sys2Proof/Machine/Operands.lean ====
section
/-! DEFINITION. Where an operation's operands come from (spec R44): the four fields of the input word, at the
level of the operation, of the pins (R41, R49) and of the word the Driver presents. The implicit operands of every
operation are the three registers; no other operand form exists. -/

namespace Sys2Proof.Machine

/-- The control inputs that an operation stands for: the fields of its word (R40, R42). -/
def inputsOf : Instr → Inputs
  | .mrst l s t => { masterResetActive := true, localReset := l, start := s, stop := t }
  | .lrst s t => { masterResetActive := false, localReset := true, start := s, stop := t }
  | .start => { masterResetActive := false, localReset := false, start := true, stop := false }
  | .stop => { masterResetActive := false, localReset := false, start := false, stop := true }
  | .startstop => { masterResetActive := false, localReset := false, start := true, stop := true }
  | .hold => { masterResetActive := false, localReset := false, start := false, stop := false }

/-- The levels of the input pins other than the clock, `true` = high (R49). -/
structure Pins where
  /-- The active-low master reset line. -/
  rstN : Bool
  start : Bool
  stop : Bool
  localReset : Bool
deriving DecidableEq, Repr

/-- The inputs that the pin levels mean: `master_reset_active = (rst_n == 0)`; for the other three, asserted is
the high level (R41). -/
def Pins.inputs (p : Pins) : Inputs where
  masterResetActive := !p.rstN
  localReset := p.localReset
  start := p.start
  stop := p.stop

/-- The inputs of the tick that comes next: the next word of the script; with no word left, what the caller left
on the lines (R121, R122; log 2). -/
def nextInputs (e : Environment) : Inputs :=
  match e.script with
  | [] => e.lines
  | w :: _ => fieldsOf w

/-- The word at which the next operation is found: the fields of `nextInputs` as one word (R40). -/
def nextWord (e : Environment) : InputWord := wordOf (nextInputs e)

end Sys2Proof.Machine
end

