-- ==== Sys2Proof/Machine/Ops.lean ====
section
/-! DEFINITION. The shared operations: the two counters' next values (spec R81, R90), the commit of a tick
without a reset (R100), the forced reset (R160 to R162), the whole step of the device as one function (R100), the
outputs (R47), and the Driver's part of a tick (R120 to R122, R130). -/

namespace Sys2Proof.Machine

/-- The count of case 3 of R81: `seconds == 59 ? 0 : seconds + 1`. -/
def countUp (seconds : Seconds) : Seconds :=
  if h : seconds.val = 59 then 0
  else ⟨seconds.val + 1, by have := seconds.isLt; omega⟩

/-- `next_seconds` (R81): clear, else frozen, else count and wrap at 59. -/
def nextSeconds (clr en : Bool) (seconds : Seconds) : Seconds :=
  if clr then 0 else if !en then seconds else countUp seconds

/-- `next_minutes` (R90): clear, else one more modulo 256 on a carry, else frozen. -/
def nextMinutes (clr carry : Bool) (minutes : Minutes) : Minutes :=
  if clr then 0 else if carry then minutes + 1 else minutes

/-- The step of the device at one rising edge, every right-hand side read from the pre-edge registers and the
inputs, and all three registers committed together (R100, R36). -/
def edge (i : Inputs) (d : Device) : Device where
  state := nextState i d.state
  seconds := nextSeconds (clear i) (enable d.state) d.seconds
  minutes := nextMinutes (clear i) (overflowPulse (clear i) (enable d.state) d.seconds) d.minutes

/-- The commit of a tick in which no reset is asserted: the FSM takes the given next state, and both counters
take their next values with `clear = false`, gated by the pre-edge state (R103 to R106). -/
def State.commitTick (s : State) (next : ControlState) : State :=
  { s with dev :=
    { state := next
      seconds := nextSeconds false (enable s.dev.state) s.dev.seconds
      minutes := nextMinutes false (overflowPulse false (enable s.dev.state) s.dev.seconds)
        s.dev.minutes } }

/-- The forced reset, shared by the master and the local reset: `state <- Idle; seconds <- 0; minutes <- 0`, saving
nothing (R101, R102, R143). It is this device's nearest thing to taking an exception; there is nothing to return
from (R144). -/
def State.forceReset (s : State) : State := { s with dev := Device.powerUp }

/-- The three output buses (R47). -/
structure Outputs where
  minutes : BitVec 8
  seconds : BitVec 6
  status : StatusCode
deriving DecidableEq, Repr

/-- The outputs: functions of the registers only, in unsigned binary (R47, R67). -/
def outputs (d : Device) : Outputs where
  minutes := d.minutes
  seconds := BitVec.ofNat 6 d.seconds.val
  status := statusCode d.state

/-- The Driver sets the input lines of the coming tick, taking the next word off its script (R122, R50; log 2). -/
def State.present (s : State) : State :=
  { s with env := { s.env with lines := nextInputs s.env, script := s.env.script.tail } }

/-- The Driver's diagnostic tick counter moves by one (R120 (b), R130). -/
def State.countTick (s : State) : State :=
  { s with env := { s.env with ticks := s.env.ticks + 1 } }

/-- What the Driver does after the edge: it counts the tick (R120 (b)); lowering the clock changes nothing (c), and
sampling changes nothing (e). -/
def afterEdge : Host.Outcome State Fault Refusal → Host.Outcome State Fault Refusal
  | .next t => .next t.countTick
  | .fault r => .fault r
  | .refused r => .refused r

/-- A machine about to run the given script (log 3). -/
def State.withScript (s : State) (script : List InputWord) : State :=
  { s with env := { s.env with script := script } }

end Sys2Proof.Machine
end

