-- ==== Sys2Proof/Machine/Requests.lean ====
section
/-! DEFINITION. The meanings of the operations without a reset: START, STOP, STARTSTOP, HOLD (spec R103 to R106). -/

namespace Sys2Proof.Machine

/-- START (R103): Running from every state; the entering tick is not counted, a tick while Running is. -/
def execStart (s : State) : Host.Outcome State Fault Refusal :=
  .next (s.commitTick .running)

/-- STOP (R104): Running goes to Paused and the stop tick is still counted; ignored in Idle and Paused. -/
def execStop (s : State) : Host.Outcome State Fault Refusal :=
  .next (s.commitTick (if s.dev.state = .running then .paused else s.dev.state))

/-- STARTSTOP (R105): each state obeys the request it listens to (R69; log 10). -/
def execStartstop (s : State) : Host.Outcome State Fault Refusal :=
  .next (s.commitTick (match s.dev.state with
    | .idle => .running
    | .running => .paused
    | .paused => .running))

/-- HOLD (R106): the state stays; a tick while Running is counted. -/
def execHold (s : State) : Host.Outcome State Fault Refusal :=
  .next (s.commitTick s.dev.state)

end Sys2Proof.Machine
end

