-- ==== Sys2Proof/Machine/Resets.lean ====
section
/-! DEFINITION. The meanings of the two resets, MRST and LRST (spec R101, R102, R161, R162). -/

namespace Sys2Proof.Machine

/-- MRST (R101): `(Idle, 0, 0)` from every state, "overriding all other inputs". -/
def execMrst (_localReset _start _stop : Bool) (s : State) : Host.Outcome State Fault Refusal :=
  .next s.forceReset

/-- LRST (R102): `(Idle, 0, 0)` from every state; the start and stop requests are lost. -/
def execLrst (_start _stop : Bool) (s : State) : Host.Outcome State Fault Refusal :=
  .next s.forceReset

end Sys2Proof.Machine
end

