-- ==== Sys2Proof/Machine/Dispatch.lean ====
section
/-! DEFINITION. One arm per tick operation (spec 30_encoding.md R42). -/

namespace Sys2Proof.Machine

/-- The effect of one tick operation on the state. -/
def exec (i : Instr) (s : State) : Host.Outcome State Fault Refusal :=
  match i with
  | .mrst l p q => Sys2Proof.Machine.execMrst l p q s
  | .lrst p q => Sys2Proof.Machine.execLrst p q s
  | .start => Sys2Proof.Machine.execStart s
  | .stop => Sys2Proof.Machine.execStop s
  | .startstop => Sys2Proof.Machine.execStartstop s
  | .hold => Sys2Proof.Machine.execHold s

end Sys2Proof.Machine
end

