-- ==== Sys2Proof/Machine/Step.lean ====
section
/-! DEFINITION. One tick of the machine (spec R7, R100, R120), and placing a word where the next tick finds it. -/

namespace Sys2Proof.Machine

/-- One `tick()` (R120): the Driver has set the lines, the operation the word selects is executed at the rising
edge, and the Driver counts the tick. -/
def step (s : State) : Host.Outcome State Fault Refusal :=
  afterEdge (exec (decodeWord (nextWord s.env)) s.present)

/-- The state with the input word number `w` as the word the next tick presents. A number above 15 is no input
word and is not placed (log 4). -/
def State.withFetchWord (s : State) (_nbits w : Nat) : State :=
  match inputWordOfNat w with
  | some word => s.withScript (word :: s.env.script.tail)
  | none => s

end Sys2Proof.Machine
end

