-- ==== Sys2Proof/Machine/Reporter.lean ====
section
/-! DEFINITION. The Status Reporter's mapping of a sample (spec 44_driver_protocol.md R128). It stands outside the
device (R4), and nothing of the machine reads it. -/

namespace Sys2Proof.Machine

/-- The name shown for a status code; any code that is no state's shows as "UNKNOWN" (R128, R151). -/
def statusName (c : StatusCode) : String :=
  match stateOfCode c with
  | some .idle => "IDLE"
  | some .running => "RUNNING"
  | some .paused => "PAUSED"
  | none => "UNKNOWN"

/-- The decimal digit of a number below 10. -/
def digit (n : Nat) : Char := Char.ofNat (48 + n % 10)

/-- Minutes and seconds as two-digit zero-padded decimal fields, colon-separated (R128). No rendering is given
for a value above 99 (U9; log 18). -/
def timeText (o : Outputs) : Option String :=
  let m := o.minutes.toNat
  let sec := o.seconds.toNat
  if m ≤ 99 then some (String.ofList [digit (m / 10), digit m, ':', digit (sec / 10), digit sec])
  else none

end Sys2Proof.Machine
end

