-- ==== Sys2Proof/Machine/Snapshot.lean ====
section
/-! DEFINITION. The per-tick diagnostic snapshot (spec 30_encoding.md R52) and what an observer following the
protocol samples (R124). Both read the machine and change nothing (R33). -/

namespace Sys2Proof.Machine

/-- The record of one tick: the inputs, the internal signals at their pre-edge values, and the outputs after the
falling edge (R52, D9; log 8). -/
structure TickRecord where
  inputs : Inputs
  state : ControlState
  nextState : ControlState
  enable : Bool
  clear : Bool
  overflowPulse : Bool
  outputs : Outputs
deriving DecidableEq, Repr

/-- The record of a tick with the given inputs on the device in its pre-edge state (R52). -/
def recordOf (i : Inputs) (d : Device) : TickRecord where
  inputs := i
  state := d.state
  nextState := nextState i d.state
  enable := enable d.state
  clear := clear i
  overflowPulse := overflowPulse (clear i) (enable d.state) d.seconds
  outputs := outputs (edge i d)

/-- The record of the tick that `step` performs next. -/
def tickRecord (s : State) : TickRecord := recordOf (nextInputs s.env) s.dev

/-- The records of the next `n` ticks, oldest first (R52, R149). -/
def trace : Nat → State → List TickRecord
  | 0, _ => []
  | n + 1, s =>
    tickRecord s :: (match step s with
      | .next t => trace n t
      | .fault _ => []
      | .refused _ => [])

/-- The samples an observer takes over the next `n` ticks, one after each falling edge (R124). -/
def samples : Nat → State → List Outputs
  | 0, _ => []
  | n + 1, s =>
    match step s with
    | .next t => outputs t.dev :: samples n t
    | .fault _ => []
    | .refused _ => []

end Sys2Proof.Machine
end

