-- ==== Sys2Proof/Safety.lean ====
section
/-! DEFINITION. The terms in which statements about runs are made: the invariant of the device (spec R109), the
effect of a list of input words on the device (R36, R100), and the carries of a run (R82, R93). -/

namespace Sys2Proof.Machine

/-- Idle is zero: an Idle device has both counters at 0 (R109). -/
def IdleIsZero (d : Device) : Prop := d.state = .idle → d.seconds = 0 ∧ d.minutes = 0

/-- `n` ticks of the machine from a state end in a state. -/
def RunsTo (n : Nat) (s t : State) : Prop := Host.Core.run Sys2Proof.core n s = .next t

/-- The device after the ticks of a list of input words, one tick each, in order (R50, R100). -/
def afterWords : List InputWord → Device → Device
  | [], d => d
  | w :: ws, d => afterWords ws (edge (fieldsOf w) d)

/-- The `overflow_pulse` of each tick of a list of input words, in order (R82). -/
def carries : List InputWord → Device → List Bool
  | [], _ => []
  | w :: ws, d =>
    overflowPulse (clear (fieldsOf w)) (enable d.state) d.seconds :: carries ws (edge (fieldsOf w) d)

/-- The step of R100 with another reading of the source of `clear` in place of R68 (D3, C4). -/
def edgeWithClear (clr : Bool) (i : Inputs) (d : Device) : Device where
  state := nextState i d.state
  seconds := nextSeconds clr (enable d.state) d.seconds
  minutes := nextMinutes clr (overflowPulse clr (enable d.state) d.seconds) d.minutes

end Sys2Proof.Machine
end

