-- ==== Sys2Proof/Certificates/Slice0/Obligations.lean ====
section
/-! DEFINITION. The statements for the provers, from the numbered rules of spec/. A device written
`⟨st, x, y⟩` is the spec's `(state, seconds, minutes)`; a word written in hexadecimal is the spec's `in[3:0]`. -/

section
open Sys2Proof Sys2Proof.Machine

/-! ### Power-up, inputs, encodings -/

/-- R22: the power-up state and the state forced by either reset are `(Idle, 0, 0)`, and the outputs then read 0. -/
def Obligations.PowerUpAndResetState : Prop :=
  State.reset.dev = ⟨.idle, 0, 0⟩ ∧
  (∀ l p q s, exec (.mrst l p q) s = .next { s with dev := ⟨.idle, 0, 0⟩ }) ∧
  (∀ p q s, exec (.lrst p q) s = .next { s with dev := ⟨.idle, 0, 0⟩ }) ∧
  outputs ⟨.idle, 0, 0⟩ = { minutes := 0, seconds := 0, status := 0 }

/-- R23: at power-up all four inputs are deasserted; the active-low master reset line is high. -/
def Obligations.PowerUpInputsDeasserted : Prop :=
  State.reset.env.lines.masterResetActive = false ∧ State.reset.env.lines.start = false ∧
  State.reset.env.lines.stop = false ∧ State.reset.env.lines.localReset = false ∧
  ∀ p : Pins, p.inputs = State.reset.env.lines →
    p.rstN = true ∧ p.start = false ∧ p.stop = false ∧ p.localReset = false

/-- R40: `in[3:0] = {master_reset_active, local_reset, start, stop}`. The packing is the spec's own tabulation
(D7). -/
def Obligations.InputWordPacking : Prop :=
  ∀ (i : Inputs) (w : InputWord),
    (wordOf i = w ↔ w.getLsbD 3 = i.masterResetActive ∧ w.getLsbD 2 = i.localReset ∧
      w.getLsbD 1 = i.start ∧ w.getLsbD 0 = i.stop) ∧
    (fieldsOf w = i ↔ wordOf i = w)

/-- R41, R49: the master reset is in effect exactly when its line is low; the other three are asserted when high.
The polarity is the spec's own decision (D2; log 14). -/
def Obligations.PinPolarity : Prop :=
  ∀ p : Pins, (p.inputs.masterResetActive = true ↔ p.rstN = false) ∧ p.inputs.start = p.start ∧
    p.inputs.stop = p.stop ∧ p.inputs.localReset = p.localReset

/-- R42, R43: the six rows, their masks and patterns, and every one of the 16 words belongs to exactly one row: the
row of the operation it decodes to. The bit places are the spec's own tabulation (D7). -/
def Obligations.WordsFallInClasses : Prop :=
  opTable = [⟨"MRST", 0x8, 0x8⟩, ⟨"LRST", 0xC, 0x4⟩, ⟨"START", 0xF, 0x2⟩, ⟨"STOP", 0xF, 0x1⟩,
    ⟨"STARTSTOP", 0xF, 0x3⟩, ⟨"HOLD", 0xF, 0x0⟩] ∧
  (∀ i : Instr, i.row ∈ opTable) ∧
  ∀ w : InputWord, ∀ r ∈ opTable, w &&& r.mask = r.pattern ↔ r = (decodeWord w).row

/-- The words of R42 written out, one or two for each row, as bytes of a script (the byte is the model's own
layout, log 4). -/
def Obligations.SampleWordsDecode : Prop :=
  decode [0b00001000] = .ok (.mrst false false false, []) ∧
  decode [0b00001011] = .ok (.mrst false true true, []) ∧
  decode [0b00001100] = .ok (.mrst true false false, []) ∧
  decode [0b00000100] = .ok (.lrst false false, []) ∧
  decode [0b00000110] = .ok (.lrst true false, []) ∧
  decode [0b00000010] = .ok (.start, []) ∧
  decode [0b00000001] = .ok (.stop, []) ∧
  decode [0b00000011] = .ok (.startstop, []) ∧
  decode [0b00000000] = .ok (.hold, [])

/-- Decode and encode agree, for one operation with anything after it and for a whole script of any length: no
operand bit is dropped, and a script's bytes are determined by its operations. The byte layout is the model's own
(log 4). -/
def Obligations.ScriptBytesRoundTrip : Prop :=
  (∀ i rest, i.wf = true → decode (encode i ++ rest) = .ok (i, rest)) ∧
  (∀ is, decodeScript (encodeScript is) = .ok is) ∧
  (∀ bs is, decodeScript bs = .ok is → encodeScript is = bs)

/-- A byte string is refused exactly when some byte is no 4-bit word, and by the name of its first such byte. The byte
layout is the model's own (log 4); that all 16 words are legal is R43. -/
def Obligations.ScriptBytesRefused : Prop :=
  (∀ bs, (∃ is, decodeScript bs = .ok is) ↔ ∀ b ∈ bs, b.toNat < 16) ∧
  ∀ pre b post, (∀ x ∈ pre, x.toNat < 16) → 16 ≤ b.toNat →
    decodeScript (pre ++ b :: post) = .error (.notAnInputWord b)

/-- R50, R51: the words of the script lines. That `RESET 0` and `IN h` with h above 15 have no expansion is the
model's reading (log 19). -/
def Obligations.ScriptLinesExpand : Prop :=
  (∀ n, (ScriptLine.wait n).expand = some (List.replicate n 0x0)) ∧
  (∀ n, 1 ≤ n → (ScriptLine.resetFor n).expand = some (List.replicate n 0x8)) ∧
  (ScriptLine.resetFor 0).expand = none ∧
  (ScriptLine.pulse .start).expand = some [0x2] ∧ (ScriptLine.pulse .stop).expand = some [0x1] ∧
  (ScriptLine.pulse .lrst).expand = some [0x4] ∧
  (∀ n, (ScriptLine.op .mrst n).expand = some (List.replicate n 0x8) ∧
    (ScriptLine.op .lrst n).expand = some (List.replicate n 0x4) ∧
    (ScriptLine.op .start n).expand = some (List.replicate n 0x2) ∧
    (ScriptLine.op .stop n).expand = some (List.replicate n 0x1) ∧
    (ScriptLine.op .startstop n).expand = some (List.replicate n 0x3) ∧
    (ScriptLine.op .hold n).expand = some (List.replicate n 0x0)) ∧
  (∀ h n, h < 16 → (ScriptLine.op (.inHex h) n).expand = some (List.replicate n (BitVec.ofNat 4 h))) ∧
  ∀ line : ScriptLine, line.expand.isSome = line.wf

/-! ### The step and the six operations -/

/-- A step runs the decoded operation: the Driver presents the next word of the script, or leaves the lines as they
are (R121, R122), the operation the word selects is executed, and one tick is counted (R120). How the script is held is
the model's own (log 1, log 2). -/
def Obligations.StepRunsDecodedOperation : Prop :=
  (∀ s w ws, s.env.script = w :: ws →
    step s = afterEdge (exec (decodeWord w)
      { s with env := { lines := fieldsOf w, script := ws, ticks := s.env.ticks } })) ∧
  (∀ s, s.env.script = [] → step s = afterEdge (exec (decodeWord (wordOf s.env.lines)) s)) ∧
  (∀ t : State, afterEdge (.next t) = .next { t with env := { t.env with ticks := t.env.ticks + 1 } }) ∧
  ∀ (s : State) (nbits w : Nat), w < 16 →
    step (s.withFetchWord nbits w) = afterEdge (exec (decodeWord (BitVec.ofNat 4 w))
      { s with env :=
        { lines := fieldsOf (BitVec.ofNat 4 w), script := s.env.script.tail, ticks := s.env.ticks } })

/-- R101, MRST. -/
def Obligations.MrstForcesPowerUp : Prop :=
  (∀ w : InputWord, 8 ≤ w.toNat ↔ ∃ l p q, decodeWord w = .mrst l p q) ∧
  (∀ l p q s, exec (.mrst l p q) s = .next { s with dev := ⟨.idle, 0, 0⟩ }) ∧
  ∀ l p q d, (recordOf (inputsOf (.mrst l p q)) d).clear = true ∧
    (recordOf (inputsOf (.mrst l p q)) d).overflowPulse = false ∧
    (recordOf (inputsOf (.mrst l p q)) d).enable = decide (d.state = .running) ∧
    (recordOf (inputsOf (.mrst l p q)) d).outputs.status = 0

/-- R102, LRST. -/
def Obligations.LrstForcesPowerUp : Prop :=
  (∀ w : InputWord, (4 ≤ w.toNat ∧ w.toNat < 8) ↔ ∃ p q, decodeWord w = .lrst p q) ∧
  (∀ p q s, exec (.lrst p q) s = .next { s with dev := ⟨.idle, 0, 0⟩ }) ∧
  ∀ p q d, (recordOf (inputsOf (.lrst p q)) d).clear = true ∧
    (recordOf (inputsOf (.lrst p q)) d).overflowPulse = false ∧
    (recordOf (inputsOf (.lrst p q)) d).enable = decide (d.state = .running) ∧
    (recordOf (inputsOf (.lrst p q)) d).outputs.status = 0

/-- R103, START: the whole next state for every pre-edge state, and the signals during the tick. -/
def Obligations.StartRunsOrCounts : Prop :=
  (∀ w : InputWord, decodeWord w = .start ↔ w = 0x2) ∧
  (∀ s, s.dev.state ≠ .running →
    exec .start s = .next { s with dev := { s.dev with state := .running } }) ∧
  (∀ s (x : Seconds) y (h : x.val < 59), s.dev = ⟨.running, x, y⟩ →
    exec .start s = .next { s with dev := ⟨.running, ⟨x.val + 1, by omega⟩, y⟩ }) ∧
  (∀ s y, s.dev = ⟨.running, 59, y⟩ → exec .start s = .next { s with dev := ⟨.running, 0, y + 1⟩ }) ∧
  ∀ d, (recordOf (inputsOf .start) d).clear = false ∧
    (recordOf (inputsOf .start) d).enable = decide (d.state = .running) ∧
    (recordOf (inputsOf .start) d).overflowPulse = decide (d.state = .running ∧ d.seconds.val = 59)

/-- R104, STOP: ignored in Idle and Paused; from Running the stop tick is counted. -/
def Obligations.StopPausesAndCounts : Prop :=
  (∀ w : InputWord, decodeWord w = .stop ↔ w = 0x1) ∧
  (∀ s, s.dev.state ≠ .running → exec .stop s = .next s) ∧
  (∀ s (x : Seconds) y (h : x.val < 59), s.dev = ⟨.running, x, y⟩ →
    exec .stop s = .next { s with dev := ⟨.paused, ⟨x.val + 1, by omega⟩, y⟩ }) ∧
  (∀ s y, s.dev = ⟨.running, 59, y⟩ → exec .stop s = .next { s with dev := ⟨.paused, 0, y + 1⟩ }) ∧
  ∀ d, (recordOf (inputsOf .stop) d).clear = false ∧
    (recordOf (inputsOf .stop) d).enable = decide (d.state = .running) ∧
    (recordOf (inputsOf .stop) d).overflowPulse = decide (d.state = .running ∧ d.seconds.val = 59)

/-- R105, STARTSTOP: each state obeys the request it listens to. That the table decides this case is the spec's own
decision (D10; log 10). -/
def Obligations.StartstopTogglesAndCounts : Prop :=
  (∀ w : InputWord, decodeWord w = .startstop ↔ w = 0x3) ∧
  (∀ s, s.dev.state ≠ .running →
    exec .startstop s = .next { s with dev := { s.dev with state := .running } }) ∧
  (∀ s (x : Seconds) y (h : x.val < 59), s.dev = ⟨.running, x, y⟩ →
    exec .startstop s = .next { s with dev := ⟨.paused, ⟨x.val + 1, by omega⟩, y⟩ }) ∧
  (∀ s y, s.dev = ⟨.running, 59, y⟩ →
    exec .startstop s = .next { s with dev := ⟨.paused, 0, y + 1⟩ }) ∧
  ∀ d, (recordOf (inputsOf .startstop) d).clear = false ∧
    (recordOf (inputsOf .startstop) d).enable = decide (d.state = .running) ∧
    (recordOf (inputsOf .startstop) d).overflowPulse = decide (d.state = .running ∧ d.seconds.val = 59)

/-- R106, HOLD: the identity in Idle and Paused, the counting step in Running. -/
def Obligations.HoldKeepsOrCounts : Prop :=
  (∀ w : InputWord, decodeWord w = .hold ↔ w = 0x0) ∧
  (∀ s, s.dev.state ≠ .running → exec .hold s = .next s) ∧
  (∀ s (x : Seconds) y (h : x.val < 59), s.dev = ⟨.running, x, y⟩ →
    exec .hold s = .next { s with dev := ⟨.running, ⟨x.val + 1, by omega⟩, y⟩ }) ∧
  (∀ s y, s.dev = ⟨.running, 59, y⟩ → exec .hold s = .next { s with dev := ⟨.running, 0, y + 1⟩ }) ∧
  ∀ d, (recordOf (inputsOf .hold) d).clear = false ∧
    (recordOf (inputsOf .hold) d).enable = decide (d.state = .running) ∧
    (recordOf (inputsOf .hold) d).overflowPulse = decide (d.state = .running ∧ d.seconds.val = 59)

/-- R100: the step written out. For every state and every input word, the three next values, each from pre-edge
values alone, and the outputs sampled after the tick. That `clear` is asserted by the two resets alone is the spec's own
decision (R68, D3; log 9). -/
def Obligations.StepIsTheRule : Prop :=
  ∀ (s : State) (m l p q : Bool) (st : ControlState) (x : Seconds) (y : Minutes),
    nextInputs s.env = { masterResetActive := m, localReset := l, start := p, stop := q } →
    s.dev = ⟨st, x, y⟩ →
    ∃ t, step s = .next t ∧
      t.dev.state = (if m then .idle else if l then .idle else match st with
        | .idle => if p then .running else .idle
        | .running => if q then .paused else .running
        | .paused => if p then .running else .paused) ∧
      t.dev.seconds.val = (if (m || l) = true then 0 else if st ≠ .running then x.val
        else if x.val = 59 then 0 else x.val + 1) ∧
      t.dev.minutes.toNat = (if (m || l) = true then 0
        else if st = .running ∧ x.val = 59 then (y.toNat + 1) % 256 else y.toNat) ∧
      (outputs t.dev).status.toNat = (match t.dev.state with | .idle => 0 | .running => 1 | .paused => 2) ∧
      (outputs t.dev).seconds.toNat = t.dev.seconds.val ∧ (outputs t.dev).minutes = t.dev.minutes

/-- The six operations add no behaviour to R100: each is the one step function of the device at the inputs its word
stands for, and nothing beside the device moves. -/
def Obligations.OperationsAreTheStep : Prop :=
  (∀ w : InputWord, inputsOf (decodeWord w) = fieldsOf w) ∧
  ∀ i s, exec i s = .next { s with dev := edge (inputsOf i) s.dev }

/-- R107: for every state and every input word exactly one next state, again a state. -/
def Obligations.StepIsTotal : Prop :=
  (∀ s, ∃ t, step s = .next t ∧ t.dev.seconds.val ≤ 59 ∧ ∀ u, step s = .next u → u = t) ∧
  ∀ (s : State) (w : InputWord) (ws : List InputWord), ∃ t, step (s.withScript (w :: ws)) = .next t

/-- R107, R140: no run of any length, from any state, ends in a fault or a refusal. -/
def Obligations.RunsNeverStop : Prop :=
  ∀ (n : Nat) (s : State), ∃ t, RunsTo n s t

/-- The frame of an operation: the host's side is unchanged; outside Running an operation without a reset leaves both
counters; in any state an operation without a reset leaves `minutes` unless `seconds` is 59. -/
def Obligations.OperationFrame : Prop :=
  (∀ i s t, exec i s = .next t → t.env = s.env) ∧
  ∀ i s t, (inputsOf i).masterResetActive = false → (inputsOf i).localReset = false →
    exec i s = .next t →
    (s.dev.state ≠ .running → t.dev.seconds = s.dev.seconds ∧ t.dev.minutes = s.dev.minutes) ∧
    (s.dev.seconds.val ≠ 59 → t.dev.minutes = s.dev.minutes)

/-! ### The signals and the counters -/

/-- R61, R67: `enable` is true exactly in Running; the status codes, and 3 is never driven. -/
def Obligations.EnableAndStatus : Prop :=
  (∀ st, enable st = true ↔ st = .running) ∧ statusCode .idle = 0 ∧ statusCode .running = 1 ∧
  statusCode .paused = 2 ∧ ∀ st, statusCode st ≠ 3

/-- R62: the five arms of `next_state`, in their order of priority. -/
def Obligations.NextStateArms : Prop :=
  ∀ i : Inputs,
    (i.masterResetActive = true → ∀ st, nextState i st = .idle) ∧
    (i.masterResetActive = false → i.localReset = true → ∀ st, nextState i st = .idle) ∧
    (i.masterResetActive = false → i.localReset = false →
      nextState i .idle = (if i.start then .running else .idle) ∧
      nextState i .running = (if i.stop then .paused else .running) ∧
      nextState i .paused = (if i.start then .running else .paused))

/-- R63: the graph of the FSM: the condition of each transition, no way from Idle to Paused in one tick, and every
state within two ticks of every other. -/
def Obligations.FsmGraph : Prop :=
  (∀ i : Inputs,
    (nextState i .idle = .idle ↔ i.masterResetActive ∨ i.localReset ∨ ¬ i.start) ∧
    (nextState i .idle = .running ↔ ¬ i.masterResetActive ∧ ¬ i.localReset ∧ i.start) ∧
    nextState i .idle ≠ .paused ∧
    (nextState i .running = .running ↔ ¬ i.masterResetActive ∧ ¬ i.localReset ∧ ¬ i.stop) ∧
    (nextState i .running = .paused ↔ ¬ i.masterResetActive ∧ ¬ i.localReset ∧ i.stop) ∧
    (nextState i .running = .idle ↔ i.masterResetActive ∨ i.localReset) ∧
    (nextState i .paused = .paused ↔ ¬ i.masterResetActive ∧ ¬ i.localReset ∧ ¬ i.start) ∧
    (nextState i .paused = .running ↔ ¬ i.masterResetActive ∧ ¬ i.localReset ∧ i.start) ∧
    (nextState i .paused = .idle ↔ i.masterResetActive ∨ i.localReset)) ∧
  (∀ d, ∃ w, (afterWords [w] d).state = .idle) ∧
  ∀ d st, ∃ ws, ws.length ≤ 2 ∧ (afterWords ws d).state = st

/-- R81: the three cases of `next_seconds`, tested in their order. -/
def Obligations.NextSecondsRule : Prop :=
  ∀ clr en (x : Seconds),
    (nextSeconds clr en x).val =
      (if clr then 0 else if !en then x.val else if x.val = 59 then 0 else x.val + 1) ∧
    (clr = false → en = true → (nextSeconds clr en x).val = (x.val + 1) % 60)

/-- R82: the carry, in the very tick of the wrap, and never in two consecutive ticks. -/
def Obligations.OverflowPulseRule : Prop :=
  (∀ clr en (x : Seconds), overflowPulse clr en x = true ↔ clr = false ∧ en = true ∧ x.val = 59) ∧
  (∀ (i : Inputs) (d : Device), overflowPulse (clear i) (enable d.state) d.seconds = true →
    (edge i d).seconds = 0 ∧ (edge i d).minutes = d.minutes + 1) ∧
  ∀ (i j : Inputs) (d : Device), overflowPulse (clear i) (enable d.state) d.seconds = true →
    overflowPulse (clear j) (enable (edge i d).state) (edge i d).seconds = false

/-- R90: the three cases of `next_minutes`, tested in their order; clear and carry never compete. -/
def Obligations.NextMinutesRule : Prop :=
  (∀ clr carry (y : Minutes), (nextMinutes clr carry y).toNat =
    (if clr then 0 else if carry then (y.toNat + 1) % 256 else y.toNat)) ∧
  ∀ en (x : Seconds), overflowPulse true en x = false

/-- R93: `minutes` is driven by the carry alone: one carry, one more; at most one carry in any 60 consecutive ticks of
any run; frozen outside Running and wherever `seconds` is not 59, unless cleared. -/
def Obligations.MinutesDrivenByCarry : Prop :=
  (∀ (d : Device) (ws : List InputWord) (i j : Nat), i < j → j < i + 60 → (carries ws d)[i]? = some true → (carries ws d)[j]? ≠ some true) ∧
  (∀ (i : Inputs) (d : Device), clear i = false → overflowPulse (clear i) (enable d.state) d.seconds = true →
    (edge i d).minutes = d.minutes + 1) ∧
  (∀ (i : Inputs) (d : Device), enable d.state = false → overflowPulse (clear i) (enable d.state) d.seconds = false) ∧
  ∀ (i : Inputs) (d : Device), clear i = false → (d.state ≠ .running ∨ d.seconds.val ≠ 59) → (edge i d).minutes = d.minutes

/-- R84: while Running without a reset each tick counts one, with or without a stop; over any 60 ticks of continuous
counting there is exactly one carry, `seconds` comes back and `minutes` is one higher. -/
def Obligations.OneCarryPerPeriod : Prop :=
  (∀ (i : Inputs) (d : Device), d.state = .running → clear i = false →
    (d.seconds.val ≠ 59 → (edge i d).seconds.val = d.seconds.val + 1 ∧ (edge i d).minutes = d.minutes ∧
      overflowPulse (clear i) (enable d.state) d.seconds = false) ∧
    (d.seconds.val = 59 → (edge i d).seconds = 0 ∧ (edge i d).minutes = d.minutes + 1 ∧
      overflowPulse (clear i) (enable d.state) d.seconds = true)) ∧
  ∀ d (ws : List InputWord), d.state = .running → ws.length = 60 → (∀ w ∈ ws, w = 0x0 ∨ w = 0x2) →
    (carries ws d).count true = 1 ∧
    afterWords ws d = { d with minutes := d.minutes + 1 }

/-- R45, R47: the outputs carry the registers in unsigned binary, within their ranges; two devices that show the same
outputs are the same device. The widths and the bit order are the spec's own (D5, D8). -/
def Obligations.OutputsShowTheRegisters : Prop :=
  (∀ d, (outputs d).minutes.toNat = d.minutes.toNat ∧ (outputs d).seconds.toNat = d.seconds.val ∧
    (outputs d).seconds.toNat ≤ 59 ∧ stateOfCode (outputs d).status = some d.state ∧
    (outputs d).status ≠ 3) ∧
  ∀ d e, outputs d = outputs e → d = e

/-! ### Laws of whole runs -/

/-- Idle is zero at power-up (R109). -/
def Obligations.IdleIsZeroAtReset : Prop := IdleIsZero State.reset.dev

/-- Every step keeps that Idle is zero (R109), from every state in which it holds, and so does every run. -/
def Obligations.IdleIsZeroKept : Prop :=
  (∀ s t, IdleIsZero s.dev → step s = .next t → IdleIsZero t.dev) ∧
  ∀ (n : Nat) (s t : State), IdleIsZero s.dev → RunsTo n s t → IdleIsZero t.dev

/-- R109: in every state that some script leads to from power-up, Idle implies both counters 0. -/
def Obligations.IdleIsZeroReachable : Prop :=
  ∀ (script : List InputWord) (n : Nat) (t : State), RunsTo n (State.reset.withScript script) t →
    t.dev.state = .idle → t.dev.seconds = 0 ∧ t.dev.minutes = 0

/-- R110: a counted tick takes `T = 60 × minutes + seconds` to `(T + 1) mod 15360`, an uncounted one without a clear
leaves it, a clear sets it to 0. -/
def Obligations.ElapsedCountPerTick : Prop :=
  (∀ d, elapsed d = 60 * d.minutes.toNat + d.seconds.val ∧ elapsed d < 15360) ∧
  ∀ s t, step s = .next t →
    (s.dev.state = .running → (nextInputs s.env).masterResetActive = false →
      (nextInputs s.env).localReset = false → elapsed t.dev = (elapsed s.dev + 1) % 15360) ∧
    (s.dev.state ≠ .running → (nextInputs s.env).masterResetActive = false →
      (nextInputs s.env).localReset = false → elapsed t.dev = elapsed s.dev) ∧
    ((nextInputs s.env).masterResetActive = true ∨ (nextInputs s.env).localReset = true →
      elapsed t.dev = 0)

/-- R170: the tick that enters Running is not counted, the tick that leaves it by a stop request is. An episode with
`n` ticks between the two adds `n + 1`, from any state that is not Running and whatever words keep it Running. What the
word 0x3 does as the start or the stop is the spec's own decision (D10; log 10). -/
def Obligations.EnableLagsOneTick : Prop :=
  ∀ (s : State) (a b : InputWord) (ws rest : List InputWord), s.dev.state ≠ .running →
    (a = 0x2 ∨ a = 0x3) → (b = 0x1 ∨ b = 0x3) → (∀ w ∈ ws, w = 0x0 ∨ w = 0x2) →
    s.env.script = a :: (ws ++ b :: rest) →
    ∃ t1 t2 t3, RunsTo 1 s t1 ∧ RunsTo ws.length t1 t2 ∧ RunsTo 1 t2 t3 ∧
      t1.dev.state = .running ∧ elapsed t1.dev = elapsed s.dev ∧
      t2.dev.state = .running ∧ elapsed t2.dev = (elapsed s.dev + ws.length) % 15360 ∧
      t3.dev.state = .paused ∧ elapsed t3.dev = (elapsed s.dev + ws.length + 1) % 15360 ∧
      t3.env.script = rest

/-- R111: outside Running a tick without a reset leaves both counters; Paused without a start or a reset keeps the
whole device over any number of ticks. -/
def Obligations.FrozenWhileNotRunning : Prop :=
  (∀ s t, s.dev.state ≠ .running → clear (nextInputs s.env) = false → step s = .next t →
    t.dev.seconds = s.dev.seconds ∧ t.dev.minutes = s.dev.minutes) ∧
  ∀ s (ws rest : List InputWord), s.dev.state = .paused → (∀ w ∈ ws, w = 0x0 ∨ w = 0x1) →
    s.env.script = ws ++ rest → ∃ t, RunsTo ws.length s t ∧ t.dev = s.dev

/-- R175: after 15360 counted ticks without a clear the device is back where it was, still Running, and nothing
distinguishes the two. -/
def Obligations.SilentMinuteWrap : Prop :=
  ∀ s (ws rest : List InputWord), s.dev.state = .running → ws.length = 15360 →
    (∀ w ∈ ws, w = 0x0 ∨ w = 0x2) → s.env.script = ws ++ rest →
    ∃ t, RunsTo 15360 s t ∧ t.dev = s.dev

/-- R165: a clear returns the FSM to Idle with both counters 0, and nothing else returns it to Idle. -/
def Obligations.NoPartialReset : Prop :=
  ∀ s t, step s = .next t →
    (clear (nextInputs s.env) = true → t.dev = ⟨.idle, 0, 0⟩) ∧
    (t.dev.state = .idle → s.dev.state ≠ .idle → clear (nextInputs s.env) = true)

/-- R171: an input held over any number of ticks repeats the table: start keeps Running, stop keeps Paused, a reset
keeps `(Idle, 0, 0)`; a start while stop is still held, the word 0x3, resumes for one counted tick only. This last clause
rests on the spec's own decision about that word (D10; log 10). -/
def Obligations.HeldInputs : Prop :=
  ∀ (n : Nat) (d : Device),
    (afterWords (List.replicate (n + 1) 0x2) d).state = .running ∧
    (d.state = .running → (afterWords (List.replicate (n + 1) 0x1) d).state = .paused) ∧
    (∀ w : InputWord, 4 ≤ w.toNat → afterWords (List.replicate (n + 1) w) d = ⟨.idle, 0, 0⟩) ∧
    (d.state = .paused →
      (afterWords [0x3] d).state = .running ∧
      (afterWords (0x3 :: List.replicate (n + 1) 0x1) d).state = .paused ∧
      elapsed (afterWords (0x3 :: List.replicate (n + 1) 0x1) d) = (elapsed d + 1) % 15360)

/-- R172: a request that loses is lost: the tick is the same tick without it. -/
def Obligations.LostRequests : Prop :=
  (∀ s, s.dev.state ≠ .running → exec .stop s = exec .hold s) ∧
  (∀ s, s.dev.state = .running → exec .start s = exec .hold s) ∧
  (∀ l p q s, exec (.mrst l p q) s = exec (.mrst false false false) s) ∧
  ∀ p q s, exec (.lrst p q) s = exec (.lrst false false) s

/-- R69: with start and stop in the same tick, each state obeys the request it listens to. This is the spec's own
decision (D10; log 10). -/
def Obligations.StartstopIsTheRequestListenedTo : Prop :=
  ∀ s, exec .startstop s = if s.dev.state = .running then exec .stop s else exec .start s

/-- R173: start and stop held together from Idle alternate Running and Paused, and count every second tick. What the
word 0x3 does is the spec's own decision (D10; log 10). -/
def Obligations.StartstopAlternates : Prop :=
  ∀ (n : Nat) (d : Device), d.state = .idle →
    (afterWords (List.replicate n 0x3) d).state =
      (if n = 0 then .idle else if n % 2 = 1 then .running else .paused) ∧
    elapsed (afterWords (List.replicate n 0x3) d) = (elapsed d + n / 2) % 15360

/-- R174: a reset in the tick in which `seconds` is 59 while Running suppresses the carry; the minute is not
counted first. -/
def Obligations.ClearBeatsCarry : Prop :=
  ∀ i y, clear i = true →
    (recordOf i ⟨.running, 59, y⟩).overflowPulse = false ∧ edge i ⟨.running, 59, y⟩ = ⟨.idle, 0, 0⟩

/-- R143, R160: a reset discards the whole device. Two machines that differ only in the device are the same after any
run whose script has presented a reset word; right after that word the device is `(Idle, 0, 0)`. -/
def Obligations.ResetDiscardsEverything : Prop :=
  ∀ (s s' t t' : State) (ws rest : List InputWord) (w : InputWord) (k : Nat),
    s.env = s'.env → s.env.script = ws ++ w :: rest → 4 ≤ w.toNat →
    RunsTo (ws.length + 1 + k) s t → RunsTo (ws.length + 1 + k) s' t' →
    t = t' ∧ (k = 0 → t.dev = ⟨.idle, 0, 0⟩)

/-- D3: the two other readings of the source of `clear` (also whenever the FSM is Idle; whenever the next state is
Idle) lead every script to the same device, from every device in which Idle is zero. -/
def Obligations.OtherClearReadingsAgree : Prop :=
  ∀ (d : Device) (ws : List InputWord), IdleIsZero d →
    ws.foldl (fun e w => edgeWithClear (clear (fieldsOf w) || decide (e.state = .idle)) (fieldsOf w) e) d =
      afterWords ws d ∧
    ws.foldl (fun e w => edgeWithClear (decide (nextState (fieldsOf w) e.state = .idle)) (fieldsOf w) e) d =
      afterWords ws d

/-- The whole machine follows its script: after one tick for each word the device is where the rule R100 applied word
by word puts it, the words are used up in order, and the lines hold the last one (R36, R120, R122, R126). The script
field is the model's own (log 1). -/
def Obligations.RunFollowsScript : Prop :=
  ∀ (s : State) (ws rest : List InputWord), s.env.script = ws ++ rest →
    ∃ t, RunsTo ws.length s t ∧ t.dev = afterWords ws s.dev ∧ t.env.script = rest ∧
      t.env.ticks = s.env.ticks + ws.length ∧
      t.env.lines = (match ws.getLast? with | none => s.env.lines | some w => fieldsOf w)

/-- R121: `wait(n)` with the script used up: `n` ticks with the inputs whatever was left on the lines; with all inputs
deasserted they are `n` HOLD operations; `wait(0)` performs no tick. -/
def Obligations.WaitLeavesTheLines : Prop :=
  (∀ (n : Nat) (s : State), s.env.script = [] →
    ∃ t, RunsTo n s t ∧ t.env.lines = s.env.lines ∧ t.env.ticks = s.env.ticks + n ∧
      t.dev = afterWords (List.replicate n (wordOf s.env.lines)) s.dev) ∧
  (∀ s : State, s.env.lines = ⟨false, false, false, false⟩ → decodeWord (wordOf s.env.lines) = .hold) ∧
  ∀ s t, RunsTo 0 s t ↔ t = s

/-- R130: the Driver's tick counter counts every tick, whatever the inputs, and has no effect on the device. -/
def Obligations.TickCounterOutsideTheDevice : Prop :=
  (∀ s t, step s = .next t → t.env.ticks = s.env.ticks + 1) ∧
  (∀ s (k : Nat) t u, step s = .next t → step { s with env := { s.env with ticks := k } } = .next u →
    u.dev = t.dev) ∧
  State.reset.env.ticks = 0

/-- R52: the record of a tick: the inputs, the pre-edge state and signals, the next state, which is the post-edge
state, and the outputs after the tick. The phase is the spec's own decision (D9; log 8), and so is that `clear` is
asserted by the two resets alone (R68, D3; log 9). -/
def Obligations.TickRecordContents : Prop :=
  ∀ s, ∃ t, step s = .next t ∧
    (tickRecord s).inputs = nextInputs s.env ∧ (tickRecord s).inputs = t.env.lines ∧
    (tickRecord s).state = s.dev.state ∧ (tickRecord s).nextState = t.dev.state ∧
    ((tickRecord s).enable = true ↔ s.dev.state = .running) ∧
    (tickRecord s).clear = (t.env.lines.masterResetActive || t.env.lines.localReset) ∧
    ((tickRecord s).overflowPulse = true ↔
      (tickRecord s).clear = false ∧ s.dev.state = .running ∧ s.dev.seconds.val = 59) ∧
    (tickRecord s).outputs = outputs t.dev

/-- R124: an observer of `n` ticks sees one sample of the post-edge state for each, in order, and sampling longer does
not change what was seen. -/
def Obligations.SamplesShowPostEdgeStates : Prop :=
  ∀ (n : Nat) (s : State), (samples n s).length = n ∧
    ∀ k t, k < n → RunsTo (k + 1) s t → (samples n s)[k]? = some (outputs t.dev)

/-- R128: the Status Reporter's names, and for every sample with minutes up to 99 the time: the two decimal digits of
the minutes, a colon, the two decimal digits of the seconds. That no rendering is given above 99 is the model's reading
of U9 (log 18). -/
def Obligations.ReporterMapping : Prop :=
  statusName 0 = "IDLE" ∧ statusName 1 = "RUNNING" ∧ statusName 2 = "PAUSED" ∧ statusName 3 = "UNKNOWN" ∧
  (∀ d, statusName (outputs d).status ≠ "UNKNOWN") ∧
  (∀ (o : Outputs) (a b c d : Nat), a < 10 → b < 10 → c < 10 → d < 10 →
    o.minutes.toNat = 10 * a + b → o.seconds.toNat = 10 * c + d →
    timeText o = some (String.ofList [Char.ofNat ('0'.toNat + a), Char.ofNat ('0'.toNat + b), ':',
      Char.ofNat ('0'.toNat + c), Char.ofNat ('0'.toNat + d)])) ∧
  ∀ o : Outputs, (timeText o).isSome = decide (o.minutes.toNat ≤ 99)

end
end

