-- ==== Sys2Proof/Config.lean ====
section
/-! DEFINITION. The implementation parameters of the device (spec 00_scope.md R5). Every parameter has a
value fixed by the spec but the clock frequency, which is left open (D12) and so has no body here. -/

namespace Sys2Proof.Config

/-- `N_STATES`: the number of control states (R5). -/
def nStates : Nat := 3

/-- `SEC_MOD`: the modulus of the second counter (R5). -/
def secMod : Nat := 60

/-- `SEC_MAX`: the largest value of the second counter (R5). -/
def secMax : Nat := 59

/-- `SEC_WIDTH`: the width of the `seconds` register and output (R5, D5). -/
def secWidth : Nat := 6

/-- `MIN_WIDTH`: the width of the `minutes` register and output (R5). -/
def minWidth : Nat := 8

/-- `MIN_MOD`: the modulus of the minute counter (R5). -/
def minMod : Nat := 256

/-- `STATUS_WIDTH`: the width of the `status` output (R5). -/
def statusWidth : Nat := 2

/-- `N_INPUTS`: the number of control inputs, each one bit wide (R5). -/
def nInputs : Nat := 4

/-- `TICK_HZ`: the clock frequency. OPEN in the spec (D12, U8): a constant without a body, so that nothing can
be proved of its value. No rule reads it and nothing in the model does (log 15). -/
opaque tickHz : Nat

end Sys2Proof.Config
end

