-- ==== Sys2Proof/Laws/Encoding.lean ====
section
/-! SUPPORT. The input word and its fields determine each other (spec R40). -/

namespace Sys2Proof.Machine

@[simp] theorem wordOf_fieldsOf (w : InputWord) : wordOf (fieldsOf w) = w := by
  revert w; decide

@[simp] theorem fieldsOf_wordOf (i : Inputs) : fieldsOf (wordOf i) = i := by
  obtain ⟨m, l, s, t⟩ := i
  revert m l s t; decide

/-- The word the next tick finds at the head of the script. -/
@[simp] theorem nextWord_cons (l : Inputs) (w : InputWord) (ws : List InputWord) (k : Nat) :
    nextWord { lines := l, script := w :: ws, ticks := k } = w := wordOf_fieldsOf w

/-- With no word left, the next tick finds what is on the lines. -/
@[simp] theorem nextWord_nil (l : Inputs) (k : Nat) :
    nextWord { lines := l, script := [], ticks := k } = wordOf l := rfl

end Sys2Proof.Machine
end

