-- ==== Sys2Proof/Laws/State.lean ====
section
/-! SUPPORT. One lemma per field per update of the state, so that no proof unfolds a record update. -/

namespace Sys2Proof.Machine

@[simp] theorem commitTick_env (s : State) (n : ControlState) : (s.commitTick n).env = s.env := rfl
@[simp] theorem commitTick_state (s : State) (n : ControlState) : (s.commitTick n).dev.state = n := rfl
@[simp] theorem commitTick_seconds (s : State) (n : ControlState) :
    (s.commitTick n).dev.seconds = nextSeconds false (enable s.dev.state) s.dev.seconds := rfl
@[simp] theorem commitTick_minutes (s : State) (n : ControlState) :
    (s.commitTick n).dev.minutes =
      nextMinutes false (overflowPulse false (enable s.dev.state) s.dev.seconds) s.dev.minutes := rfl

@[simp] theorem forceReset_env (s : State) : s.forceReset.env = s.env := rfl
@[simp] theorem forceReset_dev (s : State) : s.forceReset.dev = Device.powerUp := rfl

@[simp] theorem powerUp_state : Device.powerUp.state = .idle := rfl
@[simp] theorem powerUp_seconds : Device.powerUp.seconds = 0 := rfl
@[simp] theorem powerUp_minutes : Device.powerUp.minutes = 0 := rfl

@[simp] theorem present_dev (s : State) : s.present.dev = s.dev := rfl
@[simp] theorem present_lines (s : State) : s.present.env.lines = nextInputs s.env := rfl
@[simp] theorem present_script (s : State) : s.present.env.script = s.env.script.tail := rfl
@[simp] theorem present_ticks (s : State) : s.present.env.ticks = s.env.ticks := rfl

@[simp] theorem countTick_dev (s : State) : s.countTick.dev = s.dev := rfl
@[simp] theorem countTick_lines (s : State) : s.countTick.env.lines = s.env.lines := rfl
@[simp] theorem countTick_script (s : State) : s.countTick.env.script = s.env.script := rfl
@[simp] theorem countTick_ticks (s : State) : s.countTick.env.ticks = s.env.ticks + 1 := rfl

@[simp] theorem withScript_dev (s : State) (ws : List InputWord) : (s.withScript ws).dev = s.dev := rfl
@[simp] theorem withScript_lines (s : State) (ws : List InputWord) :
    (s.withScript ws).env.lines = s.env.lines := rfl
@[simp] theorem withScript_script (s : State) (ws : List InputWord) :
    (s.withScript ws).env.script = ws := rfl
@[simp] theorem withScript_ticks (s : State) (ws : List InputWord) :
    (s.withScript ws).env.ticks = s.env.ticks := rfl

@[simp] theorem edge_state (i : Inputs) (d : Device) : (edge i d).state = nextState i d.state := rfl
@[simp] theorem edge_seconds (i : Inputs) (d : Device) :
    (edge i d).seconds = nextSeconds (clear i) (enable d.state) d.seconds := rfl
@[simp] theorem edge_minutes (i : Inputs) (d : Device) :
    (edge i d).minutes =
      nextMinutes (clear i) (overflowPulse (clear i) (enable d.state) d.seconds) d.minutes := rfl

end Sys2Proof.Machine
end

