-- ==== Sys2Proof/Laws/Ops.lean ====
section
/-! SUPPORT. What each shared operation can do, said once: the counters, the derived signals, the commit of a tick,
the Driver's part of it. -/

namespace Sys2Proof.Machine

/-- The case 3 of R81 as the rule's equivalent form, an increment modulo 60. -/
theorem countUp_val (x : Seconds) : (countUp x).val = (x.val + 1) % 60 := by
  have := x.isLt
  unfold countUp
  split <;> simp <;> omega

@[simp] theorem nextSeconds_clear (en : Bool) (x : Seconds) : nextSeconds true en x = 0 := rfl
@[simp] theorem nextSeconds_frozen (x : Seconds) : nextSeconds false false x = x := rfl
@[simp] theorem nextSeconds_counting (x : Seconds) : nextSeconds false true x = countUp x := rfl

@[simp] theorem nextMinutes_clear (carry : Bool) (m : Minutes) : nextMinutes true carry m = 0 := rfl
@[simp] theorem nextMinutes_frozen (m : Minutes) : nextMinutes false false m = m := rfl
@[simp] theorem nextMinutes_carry (m : Minutes) : nextMinutes false true m = m + 1 := rfl

@[simp] theorem overflowPulse_clear (en : Bool) (x : Seconds) : overflowPulse true en x = false := rfl
@[simp] theorem overflowPulse_frozen (clr : Bool) (x : Seconds) : overflowPulse clr false x = false := by
  simp [overflowPulse]

/-- When the carry is asserted. -/
theorem overflowPulse_iff (clr en : Bool) (x : Seconds) :
    overflowPulse clr en x = true ↔ clr = false ∧ en = true ∧ x.val = 59 := by
  have h : x = 59 ↔ x.val = 59 := Fin.ext_iff
  simp [overflowPulse, and_assoc, h]

@[simp] theorem enable_idle : enable .idle = false := rfl
@[simp] theorem enable_running : enable .running = true := rfl
@[simp] theorem enable_paused : enable .paused = false := rfl

/-- A clear drives the FSM to Idle as well (R165). -/
theorem nextState_of_clear {i : Inputs} (h : clear i = true) (st : ControlState) :
    nextState i st = .idle := by
  unfold clear at h
  unfold nextState
  cases hm : i.masterResetActive <;> simp_all

/-- A tick with a clear leaves the power-up state, whatever the device held. -/
theorem edge_of_clear {i : Inputs} (h : clear i = true) (d : Device) : edge i d = Device.powerUp := by
  simp [edge, h, nextState_of_clear h, Device.powerUp]

/-- The state after the commit of a tick outside Running: only the control state moves. -/
theorem commitTick_of_not_running {s : State} (h : s.dev.state ≠ .running) (n : ControlState) :
    s.commitTick n = { s with dev := { s.dev with state := n } } := by
  have : enable s.dev.state = false := by cases hs : s.dev.state <;> simp_all
  simp [State.commitTick, this]

/-- The state after the commit of a tick while Running: one more second, and one more minute on the carry. -/
theorem commitTick_of_running {s : State} (h : s.dev.state = .running) (n : ControlState) :
    s.commitTick n = { s with dev :=
      { state := n
        seconds := countUp s.dev.seconds
        minutes := nextMinutes false (overflowPulse false true s.dev.seconds) s.dev.minutes } } := by
  simp [State.commitTick, h]

/-- The Driver's part after the edge: a next state comes from a next state, with one more tick counted. -/
theorem afterEdge_eq_next_iff (o : Host.Outcome State Fault Refusal) (t : State) :
    afterEdge o = .next t ↔ ∃ u, o = .next u ∧ t = u.countTick := by
  cases o <;> simp [afterEdge, eq_comm]

@[simp] theorem nextInputs_nil (l : Inputs) (k : Nat) :
    nextInputs { lines := l, script := [], ticks := k } = l := rfl
@[simp] theorem nextInputs_cons (l : Inputs) (w : InputWord) (ws : List InputWord) (k : Nat) :
    nextInputs { lines := l, script := w :: ws, ticks := k } = fieldsOf w := rfl

/-- Every state has a code, and its code is read back as the state (R46). -/
theorem stateOfCode_statusCode (st : ControlState) : stateOfCode (statusCode st) = some st := by
  cases st <;> rfl

/-- The types hold what the parameters of R5 say. -/
theorem config_matches_types :
    Fintype.card Seconds = Config.secMod ∧ Config.secMax + 1 = Config.secMod ∧
    Config.secMod ≤ 2 ^ Config.secWidth ∧ 2 ^ Config.minWidth = Config.minMod ∧
    Config.nStates < 2 ^ Config.statusWidth := by
  refine ⟨Fintype.card_fin 60, rfl, ?_, rfl, ?_⟩ <;> decide

end Sys2Proof.Machine
end

