-- ==== Sys2Proof/Laws/PerInstr.lean ====
section
/-! SUPPORT. The word of every operation lies in its row of the operation table (spec R42). -/

namespace Sys2Proof.Laws.InRow

/-- The operation's word belongs to the operation's row of the table, and the operation is well formed. -/
def Statement (i : Instr) : Prop := i.row.has (encodeWord i) = true ∧ i.wf = true

theorem mrst (localReset start stop : Bool) : Statement (.mrst localReset start stop) := by
  revert localReset start stop; unfold Statement; decide

theorem lrst (start stop : Bool) : Statement (.lrst start stop) := by
  revert start stop; unfold Statement; decide

theorem start : Statement .start := by unfold Statement; decide

theorem stop : Statement .stop := by unfold Statement; decide

theorem startstop : Statement .startstop := by unfold Statement; decide

theorem hold : Statement .hold := by unfold Statement; decide

end Sys2Proof.Laws.InRow
end

