-- ==== Sys2Proof/Laws/Runs.lean ====
section
/-! SUPPORT. Runs over a list of input words, taken apart at a word or a list boundary. -/

namespace Sys2Proof.Machine

@[simp] theorem afterWords_nil (d : Device) : afterWords [] d = d := rfl
@[simp] theorem afterWords_cons (w : InputWord) (ws : List InputWord) (d : Device) :
    afterWords (w :: ws) d = afterWords ws (edge (fieldsOf w) d) := rfl

theorem afterWords_append (us ws : List InputWord) (d : Device) :
    afterWords (us ++ ws) d = afterWords ws (afterWords us d) := by
  induction us generalizing d with
  | nil => rfl
  | cons u us ih => simp [ih]

@[simp] theorem carries_nil (d : Device) : carries [] d = [] := rfl
@[simp] theorem carries_cons (w : InputWord) (ws : List InputWord) (d : Device) :
    carries (w :: ws) d =
      overflowPulse (clear (fieldsOf w)) (enable d.state) d.seconds :: carries ws (edge (fieldsOf w) d) := rfl

@[simp] theorem carries_length (ws : List InputWord) (d : Device) : (carries ws d).length = ws.length := by
  induction ws generalizing d with
  | nil => rfl
  | cons w ws ih => simp [ih]

theorem runsTo_zero (s t : State) : RunsTo 0 s t ↔ s = t :=
  ⟨fun h => Host.Outcome.next.inj h, fun h => h ▸ rfl⟩

/-- On any machine, a run of `n + 1` ticks is a tick and a run of `n` ticks. -/
theorem core_run_succ (M : Host.Core) (n : Nat) (s t : M.State) :
    M.run (n + 1) s = .next t ↔ ∃ u, M.step s = .next u ∧ M.run n u = .next t := by
  simp only [Host.Core.run]
  cases h : M.step s <;> simp

/-- A run of `n + 1` ticks is a tick and a run of `n` ticks. -/
theorem runsTo_succ (n : Nat) (s t : State) :
    RunsTo (n + 1) s t ↔ ∃ u, step s = .next u ∧ RunsTo n u t :=
  core_run_succ Sys2Proof.core n s t

end Sys2Proof.Machine
end

