-- ==== Sys2Proof/Tests/Slice0.lean ====
section
/-! SUPPORT. Tests: the checks of well-formedness refuse ill-formed terms; words written out from the spec's
encodings decode to their operations; single steps against the vectors of spec/95_test_vectors.md; a witness for the
hypotheses of each statement. Expected results are the spec's, named by the vector or the rule. -/

namespace Sys2Proof.Tests

open Sys2Proof.Machine

/-- A machine with the given device, about to present the given words, all lines deasserted. -/
def machine (st : ControlState) (x : Seconds) (y : Minutes) (script : List InputWord) : State where
  dev := { state := st, seconds := x, minutes := y }
  env := { lines := inputsDeasserted, script := script, ticks := 0 }

/-- The device after one step, where the step answers a next state. -/
def deviceAfter (s : State) : Option Device :=
  match step s with
  | .next t => some t.dev
  | .fault _ => none
  | .refused _ => none

/-! ### Well-formedness: one ill-formed term for each check -/

theorem test_wf_refuses_two_digits : (ScriptLine.op (.inHex 16) 1).wf = false := by decide
theorem test_wf_refuses_reset_zero : (ScriptLine.resetFor 0).wf = false := by decide
theorem test_wf_boundaries : (ScriptLine.op (.inHex 15) 0).wf = true ∧ (ScriptLine.resetFor 1).wf = true ∧
    (ScriptLine.wait 0).wf = true := by decide
theorem test_expand_refuses_ill_formed :
    (ScriptLine.op (.inHex 16) 1).expand = none ∧ (ScriptLine.resetFor 0).expand = none := by decide

/-! ### Decoding: words written out bit by bit from the patterns of R42 -/

theorem test_decode_mrst : decodeWord 0b1000 = .mrst false false false ∧
    decodeWord 0b1101 = .mrst true false true ∧ decodeWord 0b1010 = .mrst false true false := by decide
theorem test_decode_lrst : decodeWord 0b0100 = .lrst false false ∧ decodeWord 0b0110 = .lrst true false ∧
    decodeWord 0b0101 = .lrst false true := by decide
theorem test_decode_start : decodeWord 0b0010 = .start := by decide
theorem test_decode_stop : decodeWord 0b0001 = .stop := by decide
theorem test_decode_startstop : decodeWord 0b0011 = .startstop := by decide
theorem test_decode_hold_only_zero : ∀ w : InputWord, decodeWord w = .hold ↔ w = 0b0000 := by decide
theorem test_rows_do_not_overlap :
    opTable.Pairwise fun r q => ∀ w : InputWord, ¬ (r.has w = true ∧ q.has w = true) := by decide
theorem test_table_words : decodeTableWord 8 0x8 = some (.mrst false false false) ∧
    decodeTableWord 4 0x3 = some .startstop ∧ decodeTableWord 16 0x2 = some .start ∧
    decodeTableWord 8 0x10 = none ∧ decodeTableWord 16 0x102 = none := by decide
theorem test_fetch_word_runs :
    deviceAfter ((machine .paused 10 0 [0x4, 0x1]).withFetchWord 8 0x2) = some ⟨.running, 10, 0⟩ := by decide
/-- P1 of the vectors, the encoding of its script. -/
theorem test_expand_p1 :
    expandScript [.resetFor 2, .wait 2, .pulse .start, .wait 3, .pulse .stop, .wait 2, .pulse .start, .wait 2,
      .pulse .lrst] = some [8, 8, 0, 0, 2, 0, 0, 0, 1, 0, 0, 2, 0, 0, 4] := by decide

/-! ### Single steps: vectors V-OP -/

theorem test_mrst_v_op_1 : deviceAfter (machine .running 59 255 [0xB]) = some ⟨.idle, 0, 0⟩ := by decide
theorem test_mrst_v_op_3 : deviceAfter (machine .idle 0 0 [0xF]) = some ⟨.idle, 0, 0⟩ := by decide
theorem test_lrst_v_op_6 : deviceAfter (machine .running 59 9 [0x4]) = some ⟨.idle, 0, 0⟩ := by decide
theorem test_lrst_v_op_7 : deviceAfter (machine .idle 0 0 [0x6]) = some ⟨.idle, 0, 0⟩ := by decide
theorem test_start_v_op_11 : deviceAfter (machine .paused 59 3 [0x2]) = some ⟨.running, 59, 3⟩ := by decide
theorem test_start_v_op_13 : deviceAfter (machine .running 59 0 [0x2]) = some ⟨.running, 0, 1⟩ := by decide
theorem test_stop_v_op_16 : deviceAfter (machine .running 10 0 [0x1]) = some ⟨.paused, 11, 0⟩ := by decide
theorem test_stop_v_op_18 : deviceAfter (machine .running 59 255 [0x1]) = some ⟨.paused, 0, 0⟩ := by decide
theorem test_startstop_v_op_20 : deviceAfter (machine .running 7 2 [0x3]) = some ⟨.paused, 8, 2⟩ := by decide
theorem test_startstop_v_op_21 : deviceAfter (machine .paused 8 2 [0x3]) = some ⟨.running, 8, 2⟩ := by decide
theorem test_hold_v_op_28 : deviceAfter (machine .running 59 255 [0x0]) = some ⟨.running, 0, 0⟩ := by decide
theorem test_hold_v_op_29 : deviceAfter (machine .running 59 59 [0x0]) = some ⟨.running, 0, 60⟩ := by decide

/-- Vectors V-SC-2, 3, 6, 8, 11. -/
theorem test_second_counter : nextSeconds false true 58 = 59 ∧ nextSeconds false true 59 = 0 ∧
    nextSeconds false false 59 = 59 ∧ nextSeconds true true 59 = 0 ∧ nextSeconds false true 31 = 32 ∧
    overflowPulse false true 59 = true ∧ overflowPulse false false 59 = false ∧
    overflowPulse true true 59 = false ∧ overflowPulse false true 58 = false := by decide
/-- Vectors V-MC-2, 3, 5, 6, 8. -/
theorem test_minute_counter : nextMinutes false true 59 = 60 ∧ nextMinutes false true 127 = 128 ∧
    nextMinutes false true 255 = 0 ∧ nextMinutes false false 255 = 255 ∧ nextMinutes true false 200 = 0 := by
  decide
/-- The columns of the table of R64 for the words 0 to 3; from 4 on every entry is Idle. -/
theorem test_next_state_table :
    ([0x0, 0x1, 0x2, 0x3].map fun w => nextState (fieldsOf w) .idle) = [.idle, .idle, .running, .running] ∧
    ([0x0, 0x1, 0x2, 0x3].map fun w => nextState (fieldsOf w) .running) =
      [.running, .paused, .running, .paused] ∧
    ([0x0, 0x1, 0x2, 0x3].map fun w => nextState (fieldsOf w) .paused) =
      [.paused, .paused, .running, .running] ∧
    ∀ w : InputWord, 4 ≤ w.toNat → nextState (fieldsOf w) .running = .idle := by decide
/-- Tick 0 of P3: the record of `IN F` on (Running, 59, 4). -/
theorem test_record_p3_tick_0 : tickRecord (machine .running 59 4 [0xF]) =
    { inputs := ⟨true, true, true, true⟩, state := .running, nextState := .idle, enable := true, clear := true,
      overflowPulse := false, outputs := { minutes := 0, seconds := 0, status := 0 } } := by decide
/-- Tick 1 of P2: both counters wrap, with the carry in that tick. -/
theorem test_record_p2_tick_1 : (tickRecord (machine .running 59 255 [0x0])).overflowPulse = true ∧
    (tickRecord (machine .running 59 255 [0x0])).outputs = { minutes := 0, seconds := 0, status := 1 } := by
  decide
/-- S9 of the vectors. -/
theorem test_reporter_s9 : statusName 1 = "RUNNING" ∧
    timeText { minutes := 0, seconds := 10, status := 1 } = some "00:10" := by decide

/-! ### Witnesses: concrete values that meet the hypotheses of the statements -/

theorem test_witness_PowerUpInputsDeasserted :
    Pins.inputs { rstN := true, start := false, stop := false, localReset := false }
      = State.reset.env.lines := by decide
theorem test_witness_ScriptBytesRoundTrip : (Instr.mrst true false true).wf = true ∧
    (decodeScript [0x0D, 0x00]).toOption = some [.mrst true false true, .hold] := by decide
theorem test_witness_ScriptBytesRefused : (∀ x ∈ [(0x0F : Byte)], x.toNat < 16) ∧ 16 ≤ (0x10 : Byte).toNat ∧
    (decodeScript [0x0F]).toOption = some [.mrst true true true] ∧
    (decodeScript [0x0F, 0x10]).toOption = none := by decide
theorem test_witness_StepRunsDecodedOperation : (machine .idle 0 0 [0x2]).env.script = 0x2 :: [] ∧
    State.reset.env.script = [] ∧ (15 < 16 ∧ inputWordOfNat 15 = some 0xF) := by decide
/-- For START, STOP, STARTSTOP and HOLD: states outside Running, and Running at 0, 58 and 59. -/
theorem test_witness_operation_rows : (machine .idle 0 0 []).dev.state ≠ .running ∧
    (machine .paused 59 255 []).dev.state ≠ .running ∧
    (machine .running 58 255 []).dev = ⟨.running, 58, 255⟩ ∧ (58 : Seconds).val < 59 ∧
    (machine .running 59 255 []).dev = ⟨.running, 59, 255⟩ := by decide
theorem test_witness_StepIsTheRule :
    nextInputs (machine .running 59 255 [0x1]).env =
      { masterResetActive := false, localReset := false, start := false, stop := true } := by decide
theorem test_witness_OperationFrame : (inputsOf .hold).masterResetActive = false ∧
    (inputsOf .hold).localReset = false ∧
    exec .hold (machine .paused 59 3 []) = .next (machine .paused 59 3 []) ∧
    exec .hold (machine .running 58 3 []) = .next (machine .running 59 3 []) := ⟨rfl, rfl, rfl, rfl⟩
theorem test_witness_NextStateArms : (fieldsOf 0xF).masterResetActive = true ∧
    ((fieldsOf 0x7).masterResetActive = false ∧ (fieldsOf 0x7).localReset = true) ∧
    ((fieldsOf 0x3).masterResetActive = false ∧ (fieldsOf 0x3).localReset = false) := by decide
/-- For the rules of the carry: a tick with it, ticks without, and the two reasons for `minutes` to stay. -/
theorem test_witness_carry_rules :
    overflowPulse (clear (fieldsOf 0x1)) (enable .running) 59 = true ∧ clear (fieldsOf 0x1) = false ∧
    enable .paused = false ∧ (machine .running 58 0 []).dev.seconds.val ≠ 59 ∧
    (machine .running 59 0 []).dev.seconds.val = 59 := by decide
theorem test_witness_MinutesDrivenByCarry :
    (carries [0x0, 0x0] ⟨.running, 58, 0⟩)[1]? = some true ∧ 1 < 60 ∧ 60 < 1 + 60 := by decide
theorem test_witness_OneCarryPerPeriod : (machine .running 59 255 []).dev.state = .running ∧
    (List.replicate 60 (0x2 : InputWord)).length = 60 ∧
    ∀ w ∈ List.replicate 60 (0x2 : InputWord), w = 0x0 ∨ w = 0x2 := by decide
theorem test_witness_OutputsShowTheRegisters :
    outputs ⟨.paused, 59, 255⟩ = { minutes := 255, seconds := 59, status := 2 } := by decide
theorem test_witness_IdleIsZeroKept : IdleIsZero (machine .idle 0 0 []).dev ∧
    IdleIsZero (machine .paused 59 255 []).dev ∧
    step (machine .idle 0 0 [0x1]) = .next { machine .idle 0 0 [] with
      env := { lines := fieldsOf 0x1, script := [], ticks := 1 } } ∧
    RunsTo 1 (machine .idle 0 0 [0x1]) { machine .idle 0 0 [] with
      env := { lines := fieldsOf 0x1, script := [], ticks := 1 } } :=
  ⟨fun _ => ⟨rfl, rfl⟩, fun h => absurd h (by decide), rfl, rfl⟩
theorem test_witness_IdleIsZeroReachable : ∃ t, RunsTo 1 (State.reset.withScript [0x8]) t ∧
    t.dev.state = .idle := ⟨_, rfl, rfl⟩
/-- Ticks of the three kinds of R110 (and of R111, R165), each answering a next state. -/
theorem test_witness_ElapsedCountPerTick :
    (deviceAfter (machine .running 59 255 [0x1])).isSome ∧ clear (fieldsOf 0x1) = false ∧
    (deviceAfter (machine .paused 59 255 [0x3])).isSome ∧ clear (fieldsOf 0x3) = false ∧
    (deviceAfter (machine .running 59 255 [0x4])).isSome ∧ clear (fieldsOf 0x4) = true := by decide
theorem test_witness_NoPartialReset :
    deviceAfter (machine .running 59 4 [0x7]) = some ⟨.idle, 0, 0⟩ ∧
    (machine .running 59 4 [0x7]).dev.state ≠ .idle := by decide
theorem test_witness_EnableLagsOneTick : (machine .paused 59 255 [0x3, 0x0, 0x2, 0x1, 0x0]).dev.state ≠ .running ∧
    (∀ w ∈ [(0x0 : InputWord), 0x2], w = 0x0 ∨ w = 0x2) ∧
    (machine .paused 59 255 [0x3, 0x0, 0x2, 0x1, 0x0]).env.script = 0x3 :: ([0x0, 0x2] ++ 0x1 :: [0x0]) := by
  decide
theorem test_witness_FrozenWhileNotRunning : (machine .paused 59 255 [0x0, 0x1, 0x2]).dev.state = .paused ∧
    (∀ w ∈ [(0x0 : InputWord), 0x1], w = 0x0 ∨ w = 0x1) ∧
    (machine .paused 59 255 [0x0, 0x1, 0x2]).env.script = [0x0, 0x1] ++ [0x2] := by decide
theorem test_witness_SilentMinuteWrap : ∃ (s : State) (ws : List InputWord), s.dev.state = .running ∧
    ws.length = 15360 ∧ (∀ w ∈ ws, w = 0x0 ∨ w = 0x2) ∧ s.env.script = ws ++ [0x1] :=
  ⟨machine .running 0 0 (List.replicate 15360 0x0 ++ [0x1]), List.replicate 15360 0x0, rfl,
    List.length_replicate, fun _ h => Or.inl (List.eq_of_mem_replicate h), rfl⟩
theorem test_witness_HeldInputs : (machine .running 0 0 []).dev.state = .running ∧ 4 ≤ (0x4 : InputWord).toNat ∧
    4 ≤ (0xF : InputWord).toNat ∧ (machine .paused 59 255 []).dev.state = .paused := by decide
theorem test_witness_StartstopAlternates : (Device.mk .idle 0 0).state = .idle ∧
    (afterWords [0x3, 0x3, 0x3] ⟨.idle, 0, 0⟩) = ⟨.running, 1, 0⟩ := by decide
theorem test_witness_ClearBeatsCarry : clear (fieldsOf 0x4) = true ∧ clear (fieldsOf 0x8) = true := by decide
theorem test_witness_ResetDiscardsEverything : ∃ t t',
    (machine .running 59 4 [0x1, 0x4, 0x2]).env = (machine .paused 7 9 [0x1, 0x4, 0x2]).env ∧
    (machine .running 59 4 [0x1, 0x4, 0x2]).env.script = [0x1] ++ 0x4 :: [0x2] ∧ 4 ≤ (0x4 : InputWord).toNat ∧
    RunsTo 3 (machine .running 59 4 [0x1, 0x4, 0x2]) t ∧ RunsTo 3 (machine .paused 7 9 [0x1, 0x4, 0x2]) t' :=
  ⟨_, _, rfl, rfl, by decide, rfl, rfl⟩
theorem test_witness_OtherClearReadingsAgree : IdleIsZero ⟨.idle, 0, 0⟩ ∧ IdleIsZero ⟨.running, 59, 4⟩ :=
  ⟨fun _ => ⟨rfl, rfl⟩, fun h => absurd h (by decide)⟩
theorem test_witness_RunFollowsScript :
    (machine .idle 0 0 [0x2, 0x0, 0x1]).env.script = [0x2, 0x0] ++ [0x1] := by decide
theorem test_witness_WaitLeavesTheLines : State.reset.env.script = [] ∧
    State.reset.env.lines = ⟨false, false, false, false⟩ := by decide
theorem test_witness_TickCounterOutsideTheDevice : ∃ t u, step State.reset = .next t ∧
    step { State.reset with env := { State.reset.env with ticks := 41 } } = .next u := ⟨_, _, rfl, rfl⟩
/-- For the digits of the reporter's time: 99 and 59, the largest values with a rendering. -/
theorem test_witness_ReporterMapping : (99 : Minutes).toNat = 10 * 9 + 9 ∧ (59 : BitVec 6).toNat = 10 * 5 + 9 ∧
    timeText { minutes := 99, seconds := 59, status := 1 } = some "99:59" ∧
    timeText { minutes := 100, seconds := 0, status := 1 } = none := by decide
theorem test_witness_SamplesShowPostEdgeStates : ∃ t, 0 < 2 ∧
    RunsTo (0 + 1) (machine .running 58 0 [0x0, 0x1]) t := ⟨_, by decide, rfl⟩

end Sys2Proof.Tests
end

namespace Sys2Proof.Machine

/-! ### What an operation does (R101 to R106): a reset, or the commit of a tick -/

@[simp] theorem exec_mrst (l p q : Bool) (s : State) : exec (.mrst l p q) s = .next s.forceReset := rfl
@[simp] theorem exec_lrst (p q : Bool) (s : State) : exec (.lrst p q) s = .next s.forceReset := rfl

/-- With a reset asserted the operation is the forced reset. -/
theorem exec_of_clear {i : Instr} (h : clear (inputsOf i) = true) (s : State) :
    exec i s = .next s.forceReset := by
  cases i with
  | mrst l p q => exact exec_mrst l p q s
  | lrst p q => exact exec_lrst p q s
  | start | stop | startstop | hold => cases h

/-- Without a reset the operation is the commit of a tick, with the next state of R62. -/
theorem exec_of_not_clear {i : Instr} (h : clear (inputsOf i) = false) (s : State) :
    exec i s = .next (s.commitTick (nextState (inputsOf i) s.dev.state)) := by
  cases i with
  | mrst | lrst => cases h
  | start => cases s.dev.state <;> simp [exec, execStart, nextState, inputsOf]
  | stop => cases hs : s.dev.state <;> simp [exec, execStop, nextState, inputsOf, hs]
  | startstop => cases hs : s.dev.state <;> simp [exec, execStartstop, nextState, inputsOf, hs]
  | hold => cases hs : s.dev.state <;> simp [exec, execHold, nextState, inputsOf, hs]

/-- Everything an operation can do: it answers a next state, from the forced reset or from the commit of a tick. -/
theorem exec_cases {i : Instr} {s t : State} (h : exec i s = .next t) :
    (clear (inputsOf i) = true ∧ t = s.forceReset) ∨
    (clear (inputsOf i) = false ∧ t = s.commitTick (nextState (inputsOf i) s.dev.state)) := by
  cases hc : clear (inputsOf i) with
  | true => rw [exec_of_clear hc] at h; exact .inl ⟨rfl, (Host.Outcome.next.inj h).symm⟩
  | false => rw [exec_of_not_clear hc] at h; exact .inr ⟨rfl, (Host.Outcome.next.inj h).symm⟩

/-! ### What an operation leaves unchanged -/

/-- No operation reaches the host's side of the interface (R14, R21). -/
theorem exec_env {i : Instr} {s t : State} (h : exec i s = .next t) : t.env = s.env := by
  obtain ⟨-, rfl⟩ | ⟨-, rfl⟩ := exec_cases h
  · exact forceReset_env s
  · exact commitTick_env s _

theorem commitTick_seconds_of_not_running {s : State} (h : s.dev.state ≠ .running) (n : ControlState) :
    (s.commitTick n).dev.seconds = s.dev.seconds := by
  rw [commitTick_of_not_running h]

theorem commitTick_minutes_of_not_running {s : State} (h : s.dev.state ≠ .running) (n : ControlState) :
    (s.commitTick n).dev.minutes = s.dev.minutes := by
  rw [commitTick_of_not_running h]

/-- The minutes move on the carry alone, and the carry needs second 59 (R82, R90). -/
theorem commitTick_minutes_of_seconds_ne {s : State} (h : s.dev.seconds.val ≠ 59) (n : ControlState) :
    (s.commitTick n).dev.minutes = s.dev.minutes := by
  have noCarry : overflowPulse false (enable s.dev.state) s.dev.seconds = false := by
    simp [← Bool.not_eq_true, overflowPulse_iff, h]
  simp [noCarry]

/-- Settles O21: an operation is the forced reset or the commit of a tick, and neither touches the environment; the
commit moves the counters in Running only, and the minutes at second 59 only. -/
theorem operationFrame : Obligations.OperationFrame := by
  refine ⟨fun _ _ _ => exec_env, fun i s t hm hl h => ?_⟩
  have hc : clear (inputsOf i) = false := by simp [clear, hm, hl]
  rw [exec_of_not_clear hc] at h
  obtain rfl := Host.Outcome.next.inj h
  exact ⟨fun hr => ⟨commitTick_seconds_of_not_running hr _, commitTick_minutes_of_not_running hr _⟩,
    fun hs => commitTick_minutes_of_seconds_ne hs _⟩

/-! ### Power-up -/

theorem reset_dev : State.reset.dev = Device.powerUp := rfl
theorem reset_lines : State.reset.env.lines = inputsDeasserted := rfl

theorem powerUp_eq : Device.powerUp = ⟨.idle, 0, 0⟩ := rfl

theorem forceReset_eq (s : State) : s.forceReset = { s with dev := ⟨.idle, 0, 0⟩ } := rfl

/-- Settles O1: both resets are the one forced reset, whatever the bits they ignore. -/
theorem powerUpAndResetState : Obligations.PowerUpAndResetState := by
  refine ⟨reset_dev.trans powerUp_eq, fun l p q s => ?mrst, fun p q s => ?lrst, ?outputs⟩
  case mrst => rw [exec_mrst, forceReset_eq]
  case lrst => rw [exec_lrst, forceReset_eq]
  case outputs => rfl

/-- Which pin levels mean the given inputs: the master reset line inverted, the other three as they are (R41). -/
theorem Pins.inputs_eq_iff (p : Pins) (i : Inputs) :
    p.inputs = i ↔ p.rstN = !i.masterResetActive ∧ p.start = i.start ∧ p.stop = i.stop ∧
      p.localReset = i.localReset := by
  obtain ⟨n, s, t, l⟩ := p
  obtain ⟨m', l', s', t'⟩ := i
  simp only [Pins.inputs, Inputs.mk.injEq, Bool.not_eq_eq_eq_not]
  tauto

/-- Settles O2: the lines at power-up are all deasserted, and `Pins.inputs_eq_iff` reads the pin levels off them. -/
theorem powerUpInputsDeasserted : Obligations.PowerUpInputsDeasserted := by
  refine ⟨rfl, rfl, rfl, rfl, fun p hp => ?_⟩
  rw [reset_lines] at hp
  exact (Pins.inputs_eq_iff p inputsDeasserted).mp hp

end Sys2Proof.Machine

namespace Sys2Proof.Machine

/-! ### One tick as the rule R100 -/

/-- The operation a word selects stands for the word's own fields (R40, R42): all sixteen words. -/
@[simp] theorem inputsOf_decodeWord (w : InputWord) : inputsOf (decodeWord w) = fieldsOf w := by
  revert w; decide

theorem forceReset_eq_edge {i : Inputs} (h : clear i = true) (s : State) :
    s.forceReset = { s with dev := edge i s.dev } := by
  rw [State.forceReset, edge_of_clear h]

theorem commitTick_eq_edge {i : Inputs} (h : clear i = false) (s : State) :
    s.commitTick (nextState i s.dev.state) = { s with dev := edge i s.dev } := by
  simp [State.commitTick, edge, h]

/-- Every operation is the step of R100 at the inputs it stands for. -/
theorem exec_eq_edge (i : Instr) (s : State) :
    exec i s = .next { s with dev := edge (inputsOf i) s.dev } := by
  cases hc : clear (inputsOf i) with
  | true => rw [exec_of_clear hc, forceReset_eq_edge hc]
  | false => rw [exec_of_not_clear hc, commitTick_eq_edge hc]

/-- Everything a tick does, from any state: the device takes the step of R100 at the inputs of the tick, which stay on
the lines; the script loses its head; the tick is counted (R120, R122). -/
theorem step_eq_edge (s : State) :
    step s = .next
      { dev := edge (nextInputs s.env) s.dev
        env := { lines := nextInputs s.env, script := s.env.script.tail, ticks := s.env.ticks + 1 } } := by
  simp [step, nextWord, exec_eq_edge, afterEdge, State.countTick, State.present]

theorem nextInputs_of_script {e : Environment} {w : InputWord} {ws : List InputWord} (h : e.script = w :: ws) :
    nextInputs e = fieldsOf w := by
  simp only [nextInputs, h]

/-- The tick that presents the head `w` of the script. -/
theorem step_of_script {s : State} {w : InputWord} {ws : List InputWord} (h : s.env.script = w :: ws) :
    step s = .next
      { dev := edge (fieldsOf w) s.dev
        env := { lines := fieldsOf w, script := ws, ticks := s.env.ticks + 1 } } := by
  rw [step_eq_edge, nextInputs_of_script h, h, List.tail_cons]

/-! ### A run along the script (R36, R120, R122, R126) -/

/-- The state after one tick for each word of a first part `ws` of the script. -/
theorem runsTo_of_script (ws rest : List InputWord) {s : State} (h : s.env.script = ws ++ rest) :
    RunsTo ws.length s
      { dev := afterWords ws s.dev
        env :=
          { lines := (ws.map fieldsOf).getLastD s.env.lines
            script := rest
            ticks := s.env.ticks + ws.length } } := by
  induction ws generalizing s with
  | nil =>
    obtain rfl : s.env.script = rest := h
    exact (runsTo_zero s _).mpr rfl
  | cons w ws ih =>
    refine (runsTo_succ _ _ _).mpr ⟨_, step_of_script h, ?_⟩
    have ticks_eq : s.env.ticks + (ws.length + 1) = s.env.ticks + 1 + ws.length := by omega
    rw [List.map_cons, List.getLastD_cons, List.length_cons, ticks_eq]
    exact ih rfl

/-- Settles O46: `runsTo_of_script` gives the whole state at the end of the run, and the lines in it are the fields of
the last word, if there is one. -/
theorem runFollowsScript : Obligations.RunFollowsScript := by
  intro s ws rest h
  refine ⟨_, runsTo_of_script ws rest h, rfl, rfl, rfl, ?lines⟩
  case lines => cases hw : ws.getLast? <;> simp [List.getLastD_eq_getLast?, hw]

end Sys2Proof.Machine

namespace Sys2Proof.Machine

/-! ### Input words and operations determine each other (R40, R42, R43) -/

/-- No operand bit is lost in the word of an operation. -/
@[simp] theorem decodeWord_encodeWord (i : Instr) : decodeWord (encodeWord i) = i := by
  cases i with
  | mrst l p q => revert l p q; decide
  | lrst p q => revert p q; decide
  | start | stop | startstop | hold => rfl

/-- Every one of the sixteen words is the word of the operation it decodes to. -/
@[simp] theorem encodeWord_decodeWord (w : InputWord) : encodeWord (decodeWord w) = w := by
  revert w; decide

theorem decodeWord_eq_iff {w : InputWord} {i : Instr} : decodeWord w = i ↔ w = encodeWord i :=
  ⟨fun h => by rw [← h, encodeWord_decodeWord], fun h => by rw [h, decodeWord_encodeWord]⟩

/-! ### One byte of a stored script (log 4) -/

theorem decodeByte_of_lt {b : Byte} (h : b.toNat < 16) : decodeByte b = .ok (decodeWord (b.setWidth 4)) := if_pos h

theorem decodeByte_of_ge {b : Byte} (h : 16 ≤ b.toNat) : decodeByte b = .error (.notAnInputWord b) :=
  if_neg (Nat.not_lt.mpr h)

/-- The byte of a word is the one below 16 that has the word in its low four bits. -/
theorem eq_setWidth_iff {b : Byte} {w : InputWord} : b = w.setWidth 8 ↔ b.toNat < 16 ∧ b.setWidth 4 = w := by
  bv_omega

/-- A byte decodes to an operation exactly when it is the operation's byte. -/
theorem decodeByte_eq_ok_iff {b : Byte} {i : Instr} : decodeByte b = .ok i ↔ b = (encodeWord i).setWidth 8 := by
  rw [eq_setWidth_iff]
  rcases Nat.lt_or_ge b.toNat 16 with hb | hb
  · simp [decodeByte_of_lt hb, hb, decodeWord_eq_iff]
  · simp [decodeByte_of_ge hb, Nat.not_lt.mpr hb]

theorem exists_decodeByte_eq_ok_iff {b : Byte} : (∃ i, decodeByte b = .ok i) ↔ b.toNat < 16 := by
  rcases Nat.lt_or_ge b.toNat 16 with hb | hb
  · simp [decodeByte_of_lt hb, hb]
  · simp [decodeByte_of_ge hb, hb]

/-! ### Stored scripts of any length -/

theorem decode_encode_append (i : Instr) (rest : List Byte) : decode (encode i ++ rest) = .ok (i, rest) := by
  have h : decodeByte ((encodeWord i).setWidth 8) = .ok i := decodeByte_eq_ok_iff.mpr rfl
  simp [encode, decode, h]

@[simp] theorem decodeScript_nil : decodeScript [] = .ok [] := rfl
@[simp] theorem encodeScript_nil : encodeScript [] = [] := rfl
@[simp] theorem encodeScript_cons (i : Instr) (is : List Instr) :
    encodeScript (i :: is) = (encodeWord i).setWidth 8 :: encodeScript is := rfl

theorem decodeScript_cons_of_error {b : Byte} {e : DecodeError} (h : decodeByte b = .error e) (bs : List Byte) :
    decodeScript (b :: bs) = .error e := by
  simp [decodeScript, h]

theorem decodeScript_cons_of_tail_error {b : Byte} {bs : List Byte} {e : DecodeError} (hb : b.toNat < 16)
    (h : decodeScript bs = .error e) : decodeScript (b :: bs) = .error e := by
  simp [decodeScript, decodeByte_of_lt hb, h]

/-- A script decodes when its first byte and the bytes after it do. -/
theorem decodeScript_cons_eq_ok_iff {b : Byte} {bs : List Byte} {is : List Instr} :
    decodeScript (b :: bs) = .ok is ↔
      ∃ i js, decodeByte b = .ok i ∧ decodeScript bs = .ok js ∧ is = i :: js := by
  cases hb : decodeByte b with
  | error e => simp [decodeScript_cons_of_error hb]
  | ok i => cases hs : decodeScript bs <;> simp [decodeScript, hb, hs, eq_comm]

/-- A byte string decodes to a list of operations exactly when it is the encoding of that list. -/
theorem decodeScript_eq_ok_iff {bs : List Byte} {is : List Instr} :
    decodeScript bs = .ok is ↔ encodeScript is = bs := by
  induction bs generalizing is with
  | nil => cases is <;> simp
  | cons b bs ih =>
    simp only [decodeScript_cons_eq_ok_iff, decodeByte_eq_ok_iff, ih]
    cases is <;> simp [eq_comm]

/-- Settles O7: an operation's byte decodes to it and leaves the rest, and for scripts decoding is the inverse of
encoding in both directions. -/
theorem scriptBytesRoundTrip : Obligations.ScriptBytesRoundTrip :=
  ⟨fun i rest _ => decode_encode_append i rest, fun _ => decodeScript_eq_ok_iff.mpr rfl,
    fun _ _ => decodeScript_eq_ok_iff.mp⟩

theorem exists_decodeScript_eq_ok_iff (bs : List Byte) :
    (∃ is, decodeScript bs = .ok is) ↔ ∀ b ∈ bs, b.toNat < 16 := by
  induction bs with
  | nil => simp
  | cons b bs ih =>
    rw [List.forall_mem_cons, ← ih, ← exists_decodeByte_eq_ok_iff]
    constructor
    · rintro ⟨is, h⟩
      obtain ⟨i, js, hi, hjs, -⟩ := decodeScript_cons_eq_ok_iff.mp h
      exact ⟨⟨i, hi⟩, js, hjs⟩
    · rintro ⟨⟨i, hi⟩, js, hjs⟩
      exact ⟨i :: js, decodeScript_cons_eq_ok_iff.mpr ⟨i, js, hi, hjs, rfl⟩⟩

/-- The error names the first byte above 15. -/
theorem decodeScript_eq_error_of_first {pre : List Byte} {b : Byte} (hpre : ∀ x ∈ pre, x.toNat < 16)
    (hb : 16 ≤ b.toNat) (post : List Byte) :
    decodeScript (pre ++ b :: post) = .error (.notAnInputWord b) := by
  induction pre with
  | nil => exact decodeScript_cons_of_error (decodeByte_of_ge hb) post
  | cons x pre ih =>
    obtain ⟨hx, hrest⟩ := List.forall_mem_cons.mp hpre
    exact decodeScript_cons_of_tail_error hx (ih hrest)

/-- Settles O8: a script decodes byte by byte, and stops at the first byte that is no word. -/
theorem scriptBytesRefused : Obligations.ScriptBytesRefused :=
  ⟨exists_decodeScript_eq_ok_iff, fun _ _ post hpre hb => decodeScript_eq_error_of_first hpre hb post⟩

/-! ### The input word, its pins and the operation table (R40 to R43, R49) -/

theorem wordOf_eq_iff {i : Inputs} {w : InputWord} : wordOf i = w ↔ fieldsOf w = i :=
  ⟨fun h => by rw [← h, fieldsOf_wordOf], fun h => by rw [← h, wordOf_fieldsOf]⟩

/-- The fields of a word are its four bits, from the highest. -/
theorem fieldsOf_eq_iff {i : Inputs} {w : InputWord} :
    fieldsOf w = i ↔ w.getLsbD 3 = i.masterResetActive ∧ w.getLsbD 2 = i.localReset ∧
      w.getLsbD 1 = i.start ∧ w.getLsbD 0 = i.stop := by
  cases i
  rw [fieldsOf, Inputs.mk.injEq]

/-- Settles O3: packing and unpacking are inverse to each other, and unpacking is defined bit by bit. -/
theorem inputWordPacking : Obligations.InputWordPacking := fun _ _ =>
  ⟨wordOf_eq_iff.trans fieldsOf_eq_iff, wordOf_eq_iff.symm⟩

/-- Settles O4: `Pins.inputs_eq_iff` at the inputs the pins mean. -/
theorem pinPolarity : Obligations.PinPolarity := by
  intro p
  obtain ⟨hrst, hstart, hstop, hreset⟩ := (Pins.inputs_eq_iff p p.inputs).mp rfl
  exact ⟨by simp [hrst], hstart.symm, hstop.symm, hreset.symm⟩

theorem row_mem_opTable (i : Instr) : i.row ∈ opTable := by
  cases i <;> simp [Instr.row, opTable]

/-- The word of an operation belongs to its row. -/
theorem row_has_encodeWord (i : Instr) : i.row.has (encodeWord i) = true := by
  cases i with
  | mrst l p q => exact (Laws.InRow.mrst l p q).1
  | lrst p q => exact (Laws.InRow.lrst p q).1
  | start => exact Laws.InRow.start.1
  | stop => exact Laws.InRow.stop.1
  | startstop => exact Laws.InRow.startstop.1
  | hold => exact Laws.InRow.hold.1

/-- A word belongs to the row of the operation it decodes to. -/
theorem row_decodeWord_has (w : InputWord) : (decodeWord w).row.has w = true := by
  simpa using row_has_encodeWord (decodeWord w)

/-- No word belongs to two rows. -/
theorem row_unique : ∀ r ∈ opTable, ∀ q ∈ opTable, ∀ w, r.has w = true → q.has w = true → r = q := by
  decide

/-- Settles O5: a word lies in the row of its operation, and in no second one. -/
theorem wordsFallInClasses : Obligations.WordsFallInClasses := by
  refine ⟨rfl, row_mem_opTable, fun w r hr => ?_⟩
  rw [← beq_iff_eq]
  constructor
  · exact fun h => row_unique r hr _ (row_mem_opTable _) w h (row_decodeWord_has w)
  · rintro rfl
    exact row_decodeWord_has w

/-- Settles O6: each of the bytes is the encoding of its operation. -/
theorem sampleWordsDecode : Obligations.SampleWordsDecode :=
  ⟨decode_encode_append (.mrst false false false) [], decode_encode_append (.mrst false true true) [],
    decode_encode_append (.mrst true false false) [], decode_encode_append (.lrst false false) [],
    decode_encode_append (.lrst true false) [], decode_encode_append .start [], decode_encode_append .stop [],
    decode_encode_append .startstop [], decode_encode_append .hold []⟩

/-! ### Script lines (R50, R51) -/

theorem inputWordOfNat_of_lt {h : Nat} (hh : h < 16) : inputWordOfNat h = some (BitVec.ofNat 4 h) := if_pos hh

/-- A script operation presents a word exactly when it is well formed. -/
theorem scriptOp_word_isSome (o : ScriptOp) : o.word.isSome = o.wf := by
  cases o with
  | inHex h => by_cases hh : h < 16 <;> simp [ScriptOp.word, ScriptOp.wf, inputWordOfNat, hh]
  | mrst | lrst | start | stop | startstop | hold => rfl

theorem expand_op (o : ScriptOp) (n : Nat) : (ScriptLine.op o n).expand = o.word.map (List.replicate n) := rfl

theorem expand_resetFor {n : Nat} (h : 1 ≤ n) : (ScriptLine.resetFor n).expand = some (List.replicate n 0x8) :=
  if_pos h

/-- A script line has an expansion exactly when it is well formed. -/
theorem expand_isSome (line : ScriptLine) : line.expand.isSome = line.wf := by
  cases line with
  | op o n => rw [expand_op, Option.isSome_map, scriptOp_word_isSome]; rfl
  | wait | pulse => rfl
  | resetFor n => by_cases h : 1 ≤ n <;> simp [ScriptLine.expand, ScriptLine.wf, h]

/-- Settles O9: the words of each line as R50 and R51 give them, the two checked forms included. -/
theorem scriptLinesExpand : Obligations.ScriptLinesExpand := by
  refine ⟨fun _ => rfl, fun _ => expand_resetFor, rfl, rfl, rfl, rfl,
    fun _ => ⟨rfl, rfl, rfl, rfl, rfl, rfl⟩, fun h n hh => ?hex, expand_isSome⟩
  case hex =>
    have word_eq : (ScriptOp.inHex h).word = some (BitVec.ofNat 4 h) := inputWordOfNat_of_lt hh
    rw [expand_op, word_eq, Option.map_some]

/-! ### The outputs (R45, R47) -/

/-- The bus is wide enough for every value of the register. -/
@[simp] theorem outputs_seconds_toNat (d : Device) : (outputs d).seconds.toNat = d.seconds.val :=
  (BitVec.toNat_ofNat ..).trans (Nat.mod_eq_of_lt (by omega))

theorem statusCode_ne_three (st : ControlState) : statusCode st ≠ 3 := by cases st <;> decide

theorem statusCode_injective : Function.Injective statusCode := fun a b h =>
  Option.some.inj (by rw [← stateOfCode_statusCode a, h, stateOfCode_statusCode])

theorem outputs_injective : Function.Injective outputs := by
  intro d e h
  have hstate : d.state = e.state := statusCode_injective (congrArg Outputs.status h)
  have hseconds : d.seconds = e.seconds := by
    rw [Fin.ext_iff, ← outputs_seconds_toNat, h, outputs_seconds_toNat]
  have hminutes : d.minutes = e.minutes := congrArg Outputs.minutes h
  exact (Device.mk.injEq ..).mpr ⟨hstate, hseconds, hminutes⟩

/-- Settles O30: each bus carries its register, and the three together are injective. -/
theorem outputsShowTheRegisters : Obligations.OutputsShowTheRegisters := by
  refine ⟨fun d => ⟨rfl, outputs_seconds_toNat d, ?range, stateOfCode_statusCode d.state,
    statusCode_ne_three d.state⟩, fun _ _ h => outputs_injective h⟩
  case range =>
    rw [outputs_seconds_toNat]
    omega

/-! ### The record of a tick (R52) -/

theorem enable_iff (st : ControlState) : enable st = true ↔ st = .running := by cases st <;> simp

/-- Settles O49: `step_eq_edge` gives the whole post-edge state, whose device and lines the record shows. -/
theorem tickRecordContents : Obligations.TickRecordContents := by
  refine fun s => ⟨_, step_eq_edge s, rfl, rfl, rfl, rfl, enable_iff _, rfl, ?carry, rfl⟩
  case carry =>
    rw [← enable_iff]
    exact overflowPulse_iff _ _ _

end Sys2Proof.Machine

namespace Sys2Proof.Machine

/-! ### The Control FSM (R61 to R69) -/

/-- Settles O22: `enable_iff`, the three codes as defined, and `statusCode_ne_three`. -/
theorem enableAndStatus : Obligations.EnableAndStatus := ⟨enable_iff, rfl, rfl, rfl, statusCode_ne_three⟩

theorem clear_iff {i : Inputs} : clear i = true ↔ i.masterResetActive = true ∨ i.localReset = true :=
  Bool.or_eq_true_iff

theorem clear_eq_false_iff {i : Inputs} : clear i = false ↔ i.masterResetActive = false ∧ i.localReset = false :=
  Bool.or_eq_false_iff

/-! The three arms of R62 below the resets: each state listens to one request. -/

theorem nextState_idle_of_not_clear {i : Inputs} (h : clear i = false) :
    nextState i .idle = if i.start then .running else .idle := by
  obtain ⟨hm, hl⟩ := clear_eq_false_iff.mp h
  simp [nextState, hm, hl]

theorem nextState_running_of_not_clear {i : Inputs} (h : clear i = false) :
    nextState i .running = if i.stop then .paused else .running := by
  obtain ⟨hm, hl⟩ := clear_eq_false_iff.mp h
  simp [nextState, hm, hl]

theorem nextState_paused_of_not_clear {i : Inputs} (h : clear i = false) :
    nextState i .paused = if i.start then .running else .paused := by
  obtain ⟨hm, hl⟩ := clear_eq_false_iff.mp h
  simp [nextState, hm, hl]

/-- Settles O23: either reset is a clear, and without a clear the arm of the pre-edge state decides. -/
theorem nextStateArms : Obligations.NextStateArms := by
  refine fun i => ⟨fun hm => ?master, fun _ hl => ?localReset, fun hm hl => ?requests⟩
  case master => exact nextState_of_clear (clear_iff.mpr (.inl hm))
  case localReset => exact nextState_of_clear (clear_iff.mpr (.inr hl))
  case requests =>
    have hc : clear i = false := clear_eq_false_iff.mpr ⟨hm, hl⟩
    exact ⟨nextState_idle_of_not_clear hc, nextState_running_of_not_clear hc, nextState_paused_of_not_clear hc⟩

/-! ### The graph of the FSM (R63) -/

/-- Input words that bring the FSM to the given state, whatever state it starts in. -/
def wordsTo : ControlState → List InputWord
  | .idle => [0x8]
  | .running => [0x2]
  | .paused => [0x2, 0x1]

theorem wordsTo_length_le (st : ControlState) : (wordsTo st).length ≤ 2 := by cases st <;> simp [wordsTo]

/-- A START tick ends in Running from every state (R103). -/
theorem nextState_start (st : ControlState) : nextState (fieldsOf 0x2) st = .running := by cases st <;> rfl

theorem afterWords_wordsTo_state (st : ControlState) (d : Device) : (afterWords (wordsTo st) d).state = st := by
  cases st with
  | idle => exact nextState_of_clear (i := fieldsOf 0x8) rfl d.state
  | running => exact nextState_start d.state
  | paused => exact congrArg (nextState (fieldsOf 0x1)) (nextState_start d.state)

/-- Settles O24: with a reset every transition goes to Idle, without one the three arms give the rest; `wordsTo`
reaches each state. -/
theorem fsmGraph : Obligations.FsmGraph := by
  refine ⟨fun i => ?edges, fun d => ⟨0x8, afterWords_wordsTo_state .idle d⟩,
    fun d st => ⟨wordsTo st, wordsTo_length_le st, afterWords_wordsTo_state st d⟩⟩
  case edges =>
    cases hc : clear i with
    | true =>
      obtain hm | hl := clear_iff.mp hc
      · simp [nextState_of_clear hc, hm]
      · simp [nextState_of_clear hc, hl]
    | false =>
      obtain ⟨hm, hl⟩ := clear_eq_false_iff.mp hc
      simp [nextState_idle_of_not_clear hc, nextState_running_of_not_clear hc, nextState_paused_of_not_clear hc,
        hm, hl, ite_eq_iff]

/-! ### Requests in the same tick (R69) -/

/-- Without a reset an operation acts through its next state alone: the counters do not read the requests. -/
theorem exec_eq_of_nextState_eq {i j : Instr} {s : State} (hi : clear (inputsOf i) = false)
    (hj : clear (inputsOf j) = false)
    (h : nextState (inputsOf i) s.dev.state = nextState (inputsOf j) s.dev.state) : exec i s = exec j s := by
  rw [exec_of_not_clear hi, exec_of_not_clear hj, h]

theorem nextState_startstop_of_not_running {st : ControlState} (h : st ≠ .running) :
    nextState (inputsOf .startstop) st = nextState (inputsOf .start) st := by
  cases st with
  | idle | paused => rfl
  | running => exact absurd rfl h

/-- Settles O41: Running listens to stop alone, Idle and Paused to start alone. -/
theorem startstopIsTheRequestListenedTo : Obligations.StartstopIsTheRequestListenedTo := by
  intro s
  split
  case isTrue hr => exact exec_eq_of_nextState_eq rfl rfl (by rw [hr]; rfl)
  case isFalse hr => exact exec_eq_of_nextState_eq rfl rfl (nextState_startstop_of_not_running hr)

end Sys2Proof.Machine

namespace Sys2Proof.Machine

/-! ### The second counter and its carry in one tick (R81, R82) -/

/-- The case 3 of R81 as the rule writes it: the wrap at 59, one more below. -/
theorem countUp_val_eq_ite (x : Seconds) : (countUp x).val = if x.val = 59 then 0 else x.val + 1 := by
  rw [countUp_val]
  split <;> omega

/-- Settles O25: the clear comes first, then the missing enable, and the third case is `countUp`. -/
theorem nextSecondsRule : Obligations.NextSecondsRule := by
  intro clr en x
  cases clr with
  | true => simp
  | false =>
    cases en with
    | false => simp
    | true => exact ⟨by simp [countUp_val_eq_ite], fun _ _ => countUp_val x⟩

/-- The tick of the carry is the tick of the wrap (R82). -/
theorem edge_of_carry {i : Inputs} {d : Device}
    (h : overflowPulse (clear i) (enable d.state) d.seconds = true) :
    (edge i d).seconds = 0 ∧ (edge i d).minutes = d.minutes + 1 := by
  obtain ⟨hc, he, h59⟩ := (overflowPulse_iff _ _ _).mp h
  have wrap : countUp d.seconds = 0 := Fin.ext (by simp [countUp_val_eq_ite, h59])
  rw [edge_seconds, edge_minutes, h, hc, he]
  exact ⟨wrap, rfl⟩

/-- A counted tick below 59 adds one second and has no carry. -/
theorem edge_of_running_of_seconds_ne {i : Inputs} {d : Device} (hr : d.state = .running) (hc : clear i = false)
    (h : d.seconds.val ≠ 59) :
    (edge i d).seconds.val = d.seconds.val + 1 ∧ (edge i d).minutes = d.minutes ∧
      overflowPulse (clear i) (enable d.state) d.seconds = false := by
  have noCarry : overflowPulse (clear i) (enable d.state) d.seconds = false := by
    simp [← Bool.not_eq_true, overflowPulse_iff, h]
  refine ⟨?seconds, ?minutes, noCarry⟩
  case seconds => simp [hc, hr, countUp_val_eq_ite, h]
  case minutes => rw [edge_minutes, noCarry, hc, nextMinutes_frozen]

/-- A counted tick at second 59 has the carry. -/
theorem overflowPulse_of_running_of_seconds_eq {i : Inputs} {d : Device} (hr : d.state = .running)
    (hc : clear i = false) (h : d.seconds.val = 59) : overflowPulse (clear i) (enable d.state) d.seconds = true :=
  (overflowPulse_iff _ _ _).mpr ⟨hc, (enable_iff _).mpr hr, h⟩

/-- Settles O26: after the wrap the seconds are 0, so the next tick cannot carry. -/
theorem overflowPulseRule : Obligations.OverflowPulseRule := by
  refine ⟨overflowPulse_iff, fun _ _ => edge_of_carry, fun i j d h => ?noSecondCarry⟩
  case noSecondCarry =>
    rw [(edge_of_carry h).1, ← Bool.not_eq_true, overflowPulse_iff]
    simp

/-! ### Continuous counting (R84) -/

/-- A HOLD or START tick keeps Running. -/
theorem edge_state_of_hold_or_start {w : InputWord} (hw : w = 0x0 ∨ w = 0x2) {d : Device}
    (hr : d.state = .running) : (edge (fieldsOf w) d).state = .running := by
  rw [edge_state, hr]
  obtain rfl | rfl := hw <;> rfl

theorem clear_of_hold_or_start {w : InputWord} (hw : w = 0x0 ∨ w = 0x2) : clear (fieldsOf w) = false := by
  obtain rfl | rfl := hw <;> rfl

theorem afterWords_state_of_hold_or_start {ws : List InputWord} (hws : ∀ w ∈ ws, w = 0x0 ∨ w = 0x2) {d : Device}
    (hr : d.state = .running) : (afterWords ws d).state = .running := by
  induction ws generalizing d with
  | nil => exact hr
  | cons w ws ih =>
    obtain ⟨hw, hrest⟩ := List.forall_mem_cons.mp hws
    exact ih hrest (edge_state_of_hold_or_start hw hr)

/-- Without a clear the minutes move by the carry alone (R90). -/
theorem edge_minutes_of_not_clear {i : Inputs} (hc : clear i = false) (d : Device) :
    (edge i d).minutes =
      d.minutes + BitVec.ofNat 8 (overflowPulse (clear i) (enable d.state) d.seconds).toNat := by
  rw [edge_minutes, hc]
  cases overflowPulse false (enable d.state) d.seconds <;> simp

theorem count_true_carries_cons (w : InputWord) (ws : List InputWord) (d : Device) :
    (carries (w :: ws) d).count true =
      (overflowPulse (clear (fieldsOf w)) (enable d.state) d.seconds).toNat +
        (carries ws (edge (fieldsOf w) d)).count true := by
  rw [carries_cons, List.count_cons, Nat.add_comm]
  cases overflowPulse (clear (fieldsOf w)) (enable d.state) d.seconds <;> rfl

/-- Over a run without a clear the minutes move by the number of carries. -/
theorem afterWords_minutes_of_not_clear {ws : List InputWord} (hws : ∀ w ∈ ws, clear (fieldsOf w) = false)
    (d : Device) :
    (afterWords ws d).minutes = d.minutes + BitVec.ofNat 8 ((carries ws d).count true) := by
  induction ws generalizing d with
  | nil => simp
  | cons w ws ih =>
    obtain ⟨hw, hrest⟩ := List.forall_mem_cons.mp hws
    rw [afterWords_cons, ih hrest, edge_minutes_of_not_clear hw, count_true_carries_cons, BitVec.ofNat_add,
      BitVec.add_assoc]

/-- A counted tick adds one second, where the carry takes away 60. -/
theorem carry_add_edge_seconds {i : Inputs} {d : Device} (hr : d.state = .running) (hc : clear i = false) :
    60 * (overflowPulse (clear i) (enable d.state) d.seconds).toNat + (edge i d).seconds.val =
      d.seconds.val + 1 := by
  by_cases h : d.seconds.val = 59
  · have carry := overflowPulse_of_running_of_seconds_eq hr hc h
    rw [(edge_of_carry carry).1, carry, h]
    rfl
  · obtain ⟨hs, -, noCarry⟩ := edge_of_running_of_seconds_ne hr hc h
    rw [hs, noCarry, Bool.toNat_false, Nat.mul_zero, Nat.zero_add]

/-- Under continuous counting no second is lost: each tick is in the seconds or, by sixties, in the carries. -/
theorem carries_add_afterWords_seconds {ws : List InputWord} (hws : ∀ w ∈ ws, w = 0x0 ∨ w = 0x2) {d : Device}
    (hr : d.state = .running) :
    60 * (carries ws d).count true + (afterWords ws d).seconds.val = d.seconds.val + ws.length := by
  induction ws generalizing d with
  | nil => simp
  | cons w ws ih =>
    obtain ⟨hw, hrest⟩ := List.forall_mem_cons.mp hws
    have tick := carry_add_edge_seconds hr (clear_of_hold_or_start hw)
    have run := ih hrest (edge_state_of_hold_or_start hw hr)
    rw [count_true_carries_cons, afterWords_cons, List.length_cons]
    omega

/-- Settles O29: the seconds before and after are both below 60, so 60 counted ticks are one carry and the same
seconds; the minutes follow the carries. -/
theorem oneCarryPerPeriod : Obligations.OneCarryPerPeriod := by
  refine ⟨fun i d hr hc => ⟨edge_of_running_of_seconds_ne hr hc, fun h59 => ?wrap⟩, fun d ws hr hlen hws => ?period⟩
  case wrap =>
    have carry := overflowPulse_of_running_of_seconds_eq hr hc h59
    exact ⟨(edge_of_carry carry).1, (edge_of_carry carry).2, carry⟩
  case period =>
    have ticks := carries_add_afterWords_seconds hws hr
    have oneCarry : (carries ws d).count true = 1 := by omega
    have hstate : (afterWords ws d).state = d.state := (afterWords_state_of_hold_or_start hws hr).trans hr.symm
    have hseconds : (afterWords ws d).seconds = d.seconds := Fin.ext (by omega)
    have hminutes : (afterWords ws d).minutes = d.minutes + 1 := by
      rw [afterWords_minutes_of_not_clear (fun w hw => clear_of_hold_or_start (hws w hw)), oneCarry]
      rfl
    exact ⟨oneCarry, (Device.mk.injEq ..).mpr ⟨hstate, hseconds, hminutes⟩⟩

end Sys2Proof.Machine

namespace Sys2Proof.Machine

/-! ### The minute counter (R90, R93) -/

/-- A tick adds at most one second: a clear and a frozen tick add none, the wrap falls back to 0. -/
theorem edge_seconds_le (i : Inputs) (d : Device) : (edge i d).seconds.val ≤ d.seconds.val + 1 := by
  rw [edge_seconds]
  cases clear i with
  | true => simp
  | false =>
    cases enable d.state with
    | false => simp
    | true =>
      rw [nextSeconds_counting, countUp_val]
      exact Nat.mod_le ..

/-- The carry waits for second 59, so a run that starts below it carries no earlier than one tick for each missing
second. -/
theorem le_seconds_add_of_carry {ws : List InputWord} {d : Device} {k : Nat}
    (h : (carries ws d)[k]? = some true) : 59 ≤ d.seconds.val + k := by
  induction ws generalizing d k with
  | nil => simp at h
  | cons w ws ih =>
    rw [carries_cons] at h
    cases k with
    | zero =>
      obtain ⟨-, -, h59⟩ := (overflowPulse_iff _ _ _).mp (Option.some.inj h)
      exact h59.ge
    | succ k =>
      have later : 59 ≤ (edge (fieldsOf w) d).seconds.val + k := ih h
      have tick := edge_seconds_le (fieldsOf w) d
      omega

/-- Two carries of a run lie at least 60 ticks apart: the first one leaves second 0 behind. -/
theorem add_sixty_le_of_carries {ws : List InputWord} {d : Device} {i j : Nat} (hij : i < j)
    (hi : (carries ws d)[i]? = some true) (hj : (carries ws d)[j]? = some true) : i + 60 ≤ j := by
  induction ws generalizing d i j with
  | nil => simp at hi
  | cons w ws ih =>
    obtain ⟨j, rfl⟩ := Nat.exists_eq_add_one_of_ne_zero (Nat.ne_zero_of_lt hij)
    rw [carries_cons] at hi hj
    cases i with
    | zero =>
      have wrapped : (edge (fieldsOf w) d).seconds = 0 := (edge_of_carry (Option.some.inj hi)).1
      have later : 59 ≤ (edge (fieldsOf w) d).seconds.val + j := le_seconds_add_of_carry hj
      rw [wrapped, Fin.val_zero] at later
      omega
    | succ i =>
      have apart : i + 60 ≤ j := ih (Nat.lt_of_succ_lt_succ hij) hi hj
      omega

/-- There is no carry outside Running, and none off second 59. -/
theorem overflowPulse_eq_false {st : ControlState} {x : Seconds} (h : st ≠ .running ∨ x.val ≠ 59) (clr : Bool) :
    overflowPulse clr (enable st) x = false := by
  rw [← Bool.not_eq_true, overflowPulse_iff, enable_iff]
  rintro ⟨-, hr, h59⟩
  exact h.elim (· hr) (· h59)

/-- Settles O28: `add_sixty_le_of_carries` for the distance, `edge_of_carry` for the count, and without a carry or a
clear the minutes are frozen. -/
theorem minutesDrivenByCarry : Obligations.MinutesDrivenByCarry := by
  refine ⟨fun d ws i j hij hnear hi hj => ?apart, fun _ _ _ h => (edge_of_carry h).2, fun i d he => ?noEnable,
    fun i d hc h => ?frozen⟩
  case apart => exact absurd (add_sixty_le_of_carries hij hi hj) (Nat.not_le.mpr hnear)
  case noEnable => rw [he, overflowPulse_frozen]
  case frozen => rw [edge_minutes, overflowPulse_eq_false h, hc, nextMinutes_frozen]

/-- Settles O27: the clear comes first, then the carry, whose addition wraps at 256. -/
theorem nextMinutesRule : Obligations.NextMinutesRule := by
  refine ⟨fun clr carry y => ?arms, overflowPulse_clear⟩
  case arms =>
    cases clr with
    | true => rfl
    | false =>
      cases carry with
      | false => rfl
      | true => exact BitVec.toNat_add y 1

end Sys2Proof.Machine

namespace Sys2Proof.Machine

/-! ### Every step answers a state (R107, R140) -/

/-- The device after a tick is the step of R100 at the inputs of the tick. -/
theorem dev_of_step {s t : State} (h : step s = .next t) : t.dev = edge (nextInputs s.env) s.dev := by
  rw [step_eq_edge] at h
  obtain rfl := Host.Outcome.next.inj h
  rfl

/-- An invariant of the device that the step of R100 keeps is kept by every run of the machine. -/
theorem runsTo_keeps {P : Device → Prop} (keeps : ∀ i d, P d → P (edge i d)) {n : Nat} {s t : State}
    (hs : P s.dev) (h : RunsTo n s t) : P t.dev := by
  induction n generalizing s with
  | zero =>
    obtain rfl := (runsTo_zero s t).mp h
    exact hs
  | succ n ih =>
    obtain ⟨u, hstep, hrun⟩ := (runsTo_succ n s t).mp h
    refine ih ?_ hrun
    rw [dev_of_step hstep]
    exact keeps _ _ hs

/-! ### Idle is zero (R109) -/

/-- Only a clear returns the FSM to Idle (R165). -/
theorem eq_idle_of_nextState_eq_idle {i : Inputs} (hc : clear i = false) {st : ControlState}
    (h : nextState i st = .idle) : st = .idle := by
  cases st with
  | idle => rfl
  | running =>
    rw [nextState_running_of_not_clear hc] at h
    split at h <;> cases h
  | paused =>
    rw [nextState_paused_of_not_clear hc] at h
    split at h <;> cases h

theorem idleIsZero_powerUp : IdleIsZero Device.powerUp := fun _ => ⟨rfl, rfl⟩

theorem enable_eq_false {st : ControlState} (h : st ≠ .running) : enable st = false := by
  rw [← Bool.not_eq_true, enable_iff]
  exact h

/-- Outside Running a tick without a clear leaves both counters (R111). -/
theorem edge_of_not_running {i : Inputs} {d : Device} (hc : clear i = false) (hr : d.state ≠ .running) :
    edge i d = { d with state := nextState i d.state } := by
  simp [edge, hc, enable_eq_false hr]

/-- A tick reaches Idle by a clear, which zeroes the counters, or stays in it with the counters frozen. -/
theorem edge_keeps_idleIsZero (i : Inputs) (d : Device) (hd : IdleIsZero d) : IdleIsZero (edge i d) := by
  cases hc : clear i with
  | true =>
    rw [edge_of_clear hc]
    exact idleIsZero_powerUp
  | false =>
    intro h
    have hidle : d.state = .idle := eq_idle_of_nextState_eq_idle hc h
    rw [edge_of_not_running hc (by simp [hidle])]
    exact hd hidle

/-- Settles O32: `edge_keeps_idleIsZero` for a step, and by `runsTo_keeps` for a run. -/
theorem idleIsZeroKept : Obligations.IdleIsZeroKept := by
  refine ⟨fun s t hs h => ?step, fun n s t hs h => runsTo_keeps edge_keeps_idleIsZero hs h⟩
  case step =>
    rw [dev_of_step h]
    exact edge_keeps_idleIsZero _ _ hs

/-- Settles O31: the device at reset is the power-up device. -/
theorem idleIsZeroAtReset : Obligations.IdleIsZeroAtReset := idleIsZero_powerUp

/-- Settles O33: the invariant holds at power-up whatever script is placed, and every run keeps it. -/
theorem idleIsZeroReachable : Obligations.IdleIsZeroReachable :=
  fun _ _ _ h => runsTo_keeps edge_keeps_idleIsZero idleIsZero_powerUp h

/-! ### The other readings of the source of clear (D3) -/

/-- Another `clear` that is asserted with R68's, and otherwise in Idle only, is the same step where Idle is zero:
there it clears counters that are 0 already. -/
theorem edgeWithClear_eq_edge {clr : Bool} {i : Inputs} {d : Device} (hd : IdleIsZero d)
    (with_clear : clear i = true → clr = true) (else_idle : clear i = false → clr = true → d.state = .idle) :
    edgeWithClear clr i d = edge i d := by
  cases hc : clear i with
  | true => rw [with_clear hc, edgeWithClear, edge, hc]
  | false =>
    cases hclr : clr with
    | false => rw [edgeWithClear, edge, hc]
    | true =>
      have hidle : d.state = .idle := else_idle hc hclr
      obtain ⟨hseconds, hminutes⟩ := hd hidle
      rw [edge_of_not_running hc (by simp [hidle])]
      simp [edgeWithClear, hseconds, hminutes]

/-- A reading of the tick that agrees with R100 where Idle is zero agrees with it over every script. -/
theorem foldl_eq_afterWords {f : Device → InputWord → Device}
    (agrees : ∀ d w, IdleIsZero d → f d w = edge (fieldsOf w) d) (ws : List InputWord) {d : Device}
    (hd : IdleIsZero d) : ws.foldl f d = afterWords ws d := by
  induction ws generalizing d with
  | nil => rfl
  | cons w ws ih =>
    rw [List.foldl_cons, agrees d w hd, afterWords_cons]
    exact ih (edge_keeps_idleIsZero _ _ hd)

/-- Settles O45: each of the two readings is `clear` and, beside it, asserted in Idle only. -/
theorem otherClearReadingsAgree : Obligations.OtherClearReadingsAgree := by
  refine fun d ws hd => ⟨foldl_eq_afterWords (fun e w he => ?alsoInIdle) ws hd,
    foldl_eq_afterWords (fun e w he => ?nextIdle) ws hd⟩
  case alsoInIdle =>
    refine edgeWithClear_eq_edge he (fun hc => ?_) (fun hc h => ?_)
    · rw [hc, Bool.true_or]
    · rwa [hc, Bool.false_or, decide_eq_true_iff] at h
  case nextIdle =>
    exact edgeWithClear_eq_edge he (fun hc => decide_eq_true (nextState_of_clear hc e.state))
      (fun hc h => eq_idle_of_nextState_eq_idle hc (of_decide_eq_true h))

/-! ### The step is R100 (R100, R107, R140) -/

theorem statusCode_toNat (st : ControlState) :
    (statusCode st).toNat = match st with | .idle => 0 | .running => 1 | .paused => 2 := by
  cases st <;> rfl

/-- Settles O17: `step_eq_edge` gives the next state, and the rules of the two counters their values. -/
theorem stepIsTheRule : Obligations.StepIsTheRule := by
  intro s m l p q st x y hin hdev
  refine ⟨_, step_eq_edge s, ?state, ?seconds, ?minutes, ?status, outputs_seconds_toNat _, rfl⟩
  case state =>
    rw [hin, hdev]
    rfl
  case seconds =>
    have rule := (nextSecondsRule (m || l) (enable st) x).1
    rw [hin, hdev, edge_seconds]
    refine rule.trans ?_
    simp [← Bool.not_eq_true, enable_iff]
  case minutes =>
    have rule := nextMinutesRule.1 (m || l) (overflowPulse (m || l) (enable st) x) y
    rw [hin, hdev, edge_minutes]
    refine rule.trans ?_
    cases m || l with
    | true => rfl
    | false => simp [overflowPulse_iff, enable_iff]
  case status => exact statusCode_toNat _

/-- Settles O18: the inputs of a decoded operation are the fields of its word, and `exec_eq_edge`. -/
theorem operationsAreTheStep : Obligations.OperationsAreTheStep :=
  ⟨inputsOf_decodeWord, exec_eq_edge⟩

/-- Settles O19: `step_eq_edge` names the one next state, and an outcome holds one state only. -/
theorem stepIsTotal : Obligations.StepIsTotal := by
  refine ⟨fun s => ⟨_, step_eq_edge s, ?range, fun u h => ?unique⟩, fun _ _ _ => ⟨_, step_eq_edge _⟩⟩
  case range => omega
  case unique => exact Host.Outcome.next.inj (h.symm.trans (step_eq_edge s))

/-- Settles O20, by induction on the length: a run starts with a tick, and every tick answers a state. -/
theorem runsNeverStop : Obligations.RunsNeverStop := by
  intro n
  induction n with
  | zero => exact fun s => ⟨s, (runsTo_zero s s).mpr rfl⟩
  | succ n ih =>
    intro s
    obtain ⟨t, hrun⟩ := ih _
    exact ⟨t, (runsTo_succ n s t).mpr ⟨_, step_eq_edge s, hrun⟩⟩

/-! ### The elapsed count (R110) and the frozen counters (R111) -/

theorem elapsed_lt (d : Device) : elapsed d < 15360 := by
  have hm := d.minutes.isLt
  unfold elapsed
  omega

/-- A counted tick: the carry takes 60 seconds and gives one minute, modulo 256. -/
theorem elapsed_edge_of_running {i : Inputs} {d : Device} (hr : d.state = .running) (hc : clear i = false) :
    elapsed (edge i d) = (elapsed d + 1) % 15360 := by
  have seconds_eq := carry_add_edge_seconds hr hc
  have minutes_eq := congrArg BitVec.toNat (edge_minutes_of_not_clear hc d)
  have hm := d.minutes.isLt
  have carry_le := (overflowPulse (clear i) (enable d.state) d.seconds).toNat_le
  rw [BitVec.toNat_add, BitVec.toNat_ofNat] at minutes_eq
  unfold elapsed
  omega

theorem elapsed_edge_of_not_running {i : Inputs} {d : Device} (hr : d.state ≠ .running) (hc : clear i = false) :
    elapsed (edge i d) = elapsed d := by
  rw [edge_of_not_running hc hr]
  rfl

theorem elapsed_powerUp : elapsed Device.powerUp = 0 := rfl

/-- Settles O34: the three kinds of tick, each by its lemma about `edge`. -/
theorem elapsedCountPerTick : Obligations.ElapsedCountPerTick := by
  refine ⟨fun d => ⟨rfl, elapsed_lt d⟩, fun s t h => ?_⟩
  rw [dev_of_step h]
  refine ⟨fun hr hm hl => ?counted, fun hr hm hl => ?uncounted, fun hreset => ?cleared⟩
  case counted => exact elapsed_edge_of_running hr (clear_eq_false_iff.mpr ⟨hm, hl⟩)
  case uncounted => exact elapsed_edge_of_not_running hr (clear_eq_false_iff.mpr ⟨hm, hl⟩)
  case cleared => rw [edge_of_clear (clear_iff.mpr hreset), elapsed_powerUp]

/-- A HOLD or STOP tick in Paused changes nothing. -/
theorem edge_eq_self_of_hold_or_stop {w : InputWord} (hw : w = 0x0 ∨ w = 0x1) {d : Device}
    (hp : d.state = .paused) : edge (fieldsOf w) d = d := by
  obtain ⟨st, x, y⟩ := d
  obtain rfl : st = .paused := hp
  obtain rfl | rfl := hw <;> rfl

theorem afterWords_eq_self_of_hold_or_stop {ws : List InputWord} (hws : ∀ w ∈ ws, w = 0x0 ∨ w = 0x1)
    {d : Device} (hp : d.state = .paused) : afterWords ws d = d := by
  induction ws with
  | nil => rfl
  | cons w ws ih =>
    obtain ⟨hw, hrest⟩ := List.forall_mem_cons.mp hws
    rw [afterWords_cons, edge_eq_self_of_hold_or_stop hw hp, ih hrest]

/-- Settles O36: `edge_of_not_running` for one tick; a run in Paused repeats the identity. -/
theorem frozenWhileNotRunning : Obligations.FrozenWhileNotRunning := by
  refine ⟨fun s t hr hc h => ?frozen, fun s ws rest hp hws h =>
    ⟨_, runsTo_of_script ws rest h, afterWords_eq_self_of_hold_or_stop hws hp⟩⟩
  case frozen =>
    rw [dev_of_step h, edge_of_not_running hc hr]
    exact ⟨rfl, rfl⟩

/-! ### The signals during an operation (R101 to R106) -/

theorem enable_eq_decide (st : ControlState) : enable st = decide (st = .running) :=
  Bool.eq_iff_iff.mpr ((enable_iff st).trans decide_eq_true_iff.symm)

/-- With a reset there is a clear, no carry, and the status of Idle. -/
theorem recordOf_of_clear {i : Inputs} (h : clear i = true) (d : Device) :
    (recordOf i d).clear = true ∧ (recordOf i d).overflowPulse = false ∧
      (recordOf i d).enable = decide (d.state = .running) ∧ (recordOf i d).outputs.status = 0 := by
  refine ⟨h, ?carry, enable_eq_decide d.state, ?status⟩
  case carry => rw [recordOf, h, overflowPulse_clear]
  case status =>
    rw [recordOf, edge_of_clear h]
    rfl

/-- Without a reset the carry is asserted in Running at second 59. -/
theorem recordOf_of_not_clear {i : Inputs} (h : clear i = false) (d : Device) :
    (recordOf i d).clear = false ∧ (recordOf i d).enable = decide (d.state = .running) ∧
      (recordOf i d).overflowPulse = decide (d.state = .running ∧ d.seconds.val = 59) := by
  refine ⟨h, enable_eq_decide d.state, Bool.eq_iff_iff.mpr ?carry⟩
  case carry => simp [recordOf, h, overflowPulse_iff, enable_iff]

/-! ### The two resets (R101, R102) -/

/-- Settles O11: bit 3 alone makes a word MRST, and the operation is the forced reset. -/
theorem mrstForcesPowerUp : Obligations.MrstForcesPowerUp := by
  refine ⟨by decide, fun l p q s => ?_, fun _ _ _ d => recordOf_of_clear rfl d⟩
  rw [exec_mrst, forceReset_eq]

/-- Settles O12: the words from 4 to 7 are LRST, and the operation is the forced reset. -/
theorem lrstForcesPowerUp : Obligations.LrstForcesPowerUp := by
  refine ⟨by decide, fun p q s => ?_, fun _ _ d => recordOf_of_clear rfl d⟩
  rw [exec_lrst, forceReset_eq]

/-! ### The operations without a reset (R103 to R106): the next state of R62, and the counting of R81 and R90 -/

section
variable {i : Instr} (hc : clear (inputsOf i) = false)
include hc

theorem exec_of_not_running {s : State} (hr : s.dev.state ≠ .running) :
    exec i s = .next { s with dev := { s.dev with state := nextState (inputsOf i) s.dev.state } } := by
  rw [exec_of_not_clear hc, commitTick_of_not_running hr]

theorem exec_of_running_of_seconds_lt {s : State} {x : Seconds} {y : Minutes} (hx : x.val < 59)
    (hs : s.dev = ⟨.running, x, y⟩) :
    exec i s = .next { s with dev :=
      ⟨nextState (inputsOf i) .running, ⟨x.val + 1, Nat.add_lt_add_right hx 1⟩, y⟩ } := by
  obtain ⟨hseconds, hminutes, -⟩ :=
    edge_of_running_of_seconds_ne (i := inputsOf i) (d := ⟨.running, x, y⟩) rfl hc hx.ne
  rw [exec_eq_edge, hs, Host.Outcome.next.injEq, State.mk.injEq, Device.mk.injEq]
  exact ⟨⟨rfl, Fin.ext hseconds, hminutes⟩, rfl⟩

theorem exec_of_running_of_seconds_eq {s : State} {y : Minutes} (hs : s.dev = ⟨.running, 59, y⟩) :
    exec i s = .next { s with dev := ⟨nextState (inputsOf i) .running, 0, y + 1⟩ } := by
  obtain ⟨hseconds, hminutes⟩ :=
    edge_of_carry (overflowPulse_of_running_of_seconds_eq (d := ⟨.running, 59, y⟩) rfl hc rfl)
  rw [exec_eq_edge, hs, Host.Outcome.next.injEq, State.mk.injEq, Device.mk.injEq]
  exact ⟨⟨rfl, hseconds, hminutes⟩, rfl⟩

end

/-- STOP and HOLD answer the same state when the next control state is the present one. -/
theorem exec_eq_self_of_not_running {i : Instr} (hc : clear (inputsOf i) = false) {s : State}
    (hr : s.dev.state ≠ .running) (h : nextState (inputsOf i) s.dev.state = s.dev.state) :
    exec i s = .next s := by
  rw [exec_of_not_running hc hr, h]

theorem nextState_inputsOf_start (st : ControlState) : nextState (inputsOf .start) st = .running :=
  nextState_start st

theorem nextState_stop_of_not_running {st : ControlState} (h : st ≠ .running) :
    nextState (inputsOf .stop) st = st := by
  cases st with
  | idle | paused => rfl
  | running => exact absurd rfl h

theorem nextState_hold (st : ControlState) : nextState (inputsOf .hold) st = st := by
  cases st <;> rfl

/-- Settles O13: START is the word 2, its next state is Running, and the counting is that of every tick without a
reset. -/
theorem startRunsOrCounts : Obligations.StartRunsOrCounts := by
  refine ⟨fun w => decodeWord_eq_iff, fun s hr => ?enters,
    fun s x y hx hs => exec_of_running_of_seconds_lt rfl hx hs,
    fun s y hs => exec_of_running_of_seconds_eq rfl hs, recordOf_of_not_clear rfl⟩
  case enters => rw [exec_of_not_running rfl hr, nextState_inputsOf_start]

/-- Settles O14: outside Running a stop request moves nothing, and from Running the stop tick is counted. -/
theorem stopPausesAndCounts : Obligations.StopPausesAndCounts :=
  ⟨fun _ => decodeWord_eq_iff,
    fun _ hr => exec_eq_self_of_not_running rfl hr (nextState_stop_of_not_running hr),
    fun _ _ _ hx hs => exec_of_running_of_seconds_lt rfl hx hs,
    fun _ _ hs => exec_of_running_of_seconds_eq rfl hs, recordOf_of_not_clear rfl⟩

/-- Settles O15: outside Running STARTSTOP is START, and from Running it counts as it goes to Paused. -/
theorem startstopTogglesAndCounts : Obligations.StartstopTogglesAndCounts := by
  refine ⟨fun w => decodeWord_eq_iff, fun s hr => ?enters,
    fun s x y hx hs => exec_of_running_of_seconds_lt rfl hx hs,
    fun s y hs => exec_of_running_of_seconds_eq rfl hs, recordOf_of_not_clear rfl⟩
  case enters =>
    rw [startstopIsTheRequestListenedTo s, if_neg hr]
    exact startRunsOrCounts.2.1 s hr

/-- Settles O16: HOLD keeps the control state, so outside Running nothing moves. -/
theorem holdKeepsOrCounts : Obligations.HoldKeepsOrCounts :=
  ⟨fun _ => decodeWord_eq_iff, fun _ hr => exec_eq_self_of_not_running rfl hr (nextState_hold _),
    fun _ _ _ hx hs => exec_of_running_of_seconds_lt rfl hx hs,
    fun _ _ hs => exec_of_running_of_seconds_eq rfl hs, recordOf_of_not_clear rfl⟩

end Sys2Proof.Machine

namespace Sys2Proof.Machine

/-! ### What an observer samples (R124) -/

@[simp] theorem samples_zero (s : State) : samples 0 s = [] := rfl

theorem samples_succ_of_step {s t : State} (h : step s = .next t) (n : Nat) :
    samples (n + 1) s = outputs t.dev :: samples n t := by
  simp only [samples, h]

@[simp] theorem samples_length (n : Nat) (s : State) : (samples n s).length = n := by
  induction n generalizing s with
  | zero => rfl
  | succ n ih => rw [samples_succ_of_step (step_eq_edge s), List.length_cons, ih]

/-- By induction on the place of the sample: the first tick gives the first sample, and the samples after it are those
of the rest of the run. -/
theorem samples_getElem?_of_runsTo {k n : Nat} (hk : k < n) {s t : State} (h : RunsTo (k + 1) s t) :
    (samples n s)[k]? = some (outputs t.dev) := by
  induction k generalizing n s with
  | zero =>
    obtain ⟨m, rfl⟩ := Nat.exists_eq_add_one.mpr hk
    obtain ⟨u, hstep, hrun⟩ := (runsTo_succ 0 s t).mp h
    obtain rfl := (runsTo_zero u t).mp hrun
    rw [samples_succ_of_step hstep, List.getElem?_cons_zero]
  | succ k ih =>
    obtain ⟨m, rfl⟩ := Nat.exists_eq_add_one.mpr (Nat.zero_lt_of_lt hk)
    obtain ⟨u, hstep, hrun⟩ := (runsTo_succ (k + 1) s t).mp h
    rw [samples_succ_of_step hstep, List.getElem?_cons_succ]
    exact ih (Nat.lt_of_succ_lt_succ hk) hrun

/-- Settles O50: one sample for each tick, and sample `k` is that of the state in which a run of `k + 1` ticks ends. -/
theorem samplesShowPostEdgeStates : Obligations.SamplesShowPostEdgeStates := fun n s =>
  ⟨samples_length n s, fun _ _ hk h => samples_getElem?_of_runsTo hk h⟩

/-! ### Ticks with the script used up (R121) -/

theorem nextInputs_of_script_nil {e : Environment} (h : e.script = []) : nextInputs e = e.lines := by
  simp only [nextInputs, h]

/-- The tick that leaves the lines as they are. -/
theorem step_of_script_nil {s : State} (h : s.env.script = []) :
    step s = .next { dev := edge s.env.lines s.dev, env := { s.env with ticks := s.env.ticks + 1 } } := by
  rw [step_eq_edge, nextInputs_of_script_nil h, h, List.tail_nil, ← h]

/-- The state after `n` ticks with no word left: the device has taken `n` steps at the word on the lines. -/
theorem runsTo_of_script_nil (n : Nat) {s : State} (h : s.env.script = []) :
    RunsTo n s
      { dev := afterWords (List.replicate n (wordOf s.env.lines)) s.dev
        env := { s.env with ticks := s.env.ticks + n } } := by
  induction n generalizing s with
  | zero => exact (runsTo_zero s _).mpr rfl
  | succ n ih =>
    refine (runsTo_succ _ _ _).mpr ⟨_, step_of_script_nil h, ?_⟩
    have ticks_eq : s.env.ticks + (n + 1) = s.env.ticks + 1 + n := by omega
    rw [List.replicate_succ, afterWords_cons, fieldsOf_wordOf, ticks_eq]
    exact ih h

/-- Settles O47: `runsTo_of_script_nil` gives the whole state at the end of the wait. -/
theorem waitLeavesTheLines : Obligations.WaitLeavesTheLines := by
  refine ⟨fun n s h => ⟨_, runsTo_of_script_nil n h, rfl, rfl, rfl⟩, fun s h => ?hold,
    fun s t => (runsTo_zero s t).trans eq_comm⟩
  case hold =>
    rw [h]
    rfl

/-! ### How a step presents its word (R120 to R122) -/

theorem present_of_script {s : State} {w : InputWord} {ws : List InputWord} (h : s.env.script = w :: ws) :
    s.present = { s with env := { lines := fieldsOf w, script := ws, ticks := s.env.ticks } } := by
  rw [State.present, nextInputs_of_script h, h, List.tail_cons]

theorem present_of_script_nil {s : State} (h : s.env.script = []) : s.present = s := by
  rw [State.present, nextInputs_of_script_nil h, h, List.tail_nil, ← h]

/-- The step that presents `w` executes the operation `w` selects. -/
theorem step_eq_exec_of_script {s : State} {w : InputWord} {ws : List InputWord} (h : s.env.script = w :: ws) :
    step s = afterEdge (exec (decodeWord w)
      { s with env := { lines := fieldsOf w, script := ws, ticks := s.env.ticks } }) := by
  rw [step, nextWord, nextInputs_of_script h, wordOf_fieldsOf, present_of_script h]

theorem step_eq_exec_of_script_nil {s : State} (h : s.env.script = []) :
    step s = afterEdge (exec (decodeWord (wordOf s.env.lines)) s) := by
  rw [step, nextWord, nextInputs_of_script_nil h, present_of_script_nil h]

/-- Placing a word takes the place of the head of the script (log 4). -/
theorem withFetchWord_of_lt (s : State) (nbits : Nat) {w : Nat} (hw : w < 16) :
    s.withFetchWord nbits w = s.withScript (BitVec.ofNat 4 w :: s.env.script.tail) := by
  rw [State.withFetchWord, inputWordOfNat_of_lt hw]

/-- Settles O10: the lemmas on a script with a word and without one; a placed word is the head of a script. -/
theorem stepRunsDecodedOperation : Obligations.StepRunsDecodedOperation := by
  refine ⟨fun s w ws => step_eq_exec_of_script, fun s => step_eq_exec_of_script_nil, fun t => rfl,
    fun s nbits w hw => ?placed⟩
  case placed =>
    rw [withFetchWord_of_lt s nbits hw]
    exact step_eq_exec_of_script (withScript_script s _)

/-! ### The tick counter (R130) -/

theorem ticks_of_step {s t : State} (h : step s = .next t) : t.env.ticks = s.env.ticks + 1 := by
  rw [step_eq_edge] at h
  obtain rfl := Host.Outcome.next.inj h
  rfl

/-- Settles O48: by `dev_of_step` the device after a tick depends on the device, the lines and the script alone. -/
theorem tickCounterOutsideTheDevice : Obligations.TickCounterOutsideTheDevice := by
  refine ⟨fun s t => ticks_of_step, fun s k t u ht hu => ?device, rfl⟩
  case device =>
    rw [dev_of_step hu, dev_of_step ht]
    rfl

/-! ### The Status Reporter (R128) -/

theorem statusName_statusCode_ne_unknown (st : ControlState) : statusName (statusCode st) ≠ "UNKNOWN" := by
  cases st <;> decide

theorem digit_ones {a b : Nat} (hb : b < 10) : digit (10 * a + b) = Char.ofNat ('0'.toNat + b) := by
  have mod_eq : (10 * a + b) % 10 = b := by omega
  rw [digit, mod_eq]
  rfl

theorem digit_tens {a b : Nat} (ha : a < 10) (hb : b < 10) :
    digit ((10 * a + b) / 10) = Char.ofNat ('0'.toNat + a) := by
  have div_mod_eq : (10 * a + b) / 10 % 10 = a := by omega
  rw [digit, div_mod_eq]
  rfl

theorem timeText_of_le {o : Outputs} (h : o.minutes.toNat ≤ 99) :
    timeText o = some (String.ofList [digit (o.minutes.toNat / 10), digit o.minutes.toNat, ':',
      digit (o.seconds.toNat / 10), digit o.seconds.toNat]) := if_pos h

/-- A rendering is given exactly up to 99 minutes (U9; log 18). -/
theorem timeText_isSome (o : Outputs) : (timeText o).isSome = decide (o.minutes.toNat ≤ 99) := by
  by_cases h : o.minutes.toNat ≤ 99
  · rw [timeText_of_le h, Option.isSome_some, decide_eq_true h]
  · rw [timeText, if_neg h, Option.isSome_none, decide_eq_false h]

/-- Settles O51: each state has a name of its own, and the digits of `10 * a + b` are those of `a` and `b`. -/
theorem reporterMapping : Obligations.ReporterMapping := by
  refine ⟨rfl, rfl, rfl, rfl, fun d => statusName_statusCode_ne_unknown d.state,
    fun o a b c d ha hb hc hd hmin hsec => ?digits, timeText_isSome⟩
  case digits =>
    have hle : o.minutes.toNat ≤ 99 := by omega
    rw [timeText_of_le hle, hmin, hsec, digit_tens ha hb, digit_ones hb, digit_tens hc hd, digit_ones hd]

end Sys2Proof.Machine

namespace Sys2Proof.Machine

/-! ### A reset discards the device (R143, R160 to R162) -/

/-- The words from 4 up assert a reset: bit 3 is the master reset, bit 2 the local reset (R40, R42). -/
theorem clear_fieldsOf_iff (w : InputWord) : clear (fieldsOf w) = true ↔ 4 ≤ w.toNat := by
  revert w; decide

theorem runsTo_unique {n : Nat} {s t u : State} (ht : RunsTo n s t) (hu : RunsTo n s u) : t = u :=
  Host.Outcome.next.inj (ht.symm.trans hu)

/-- A run that has passed through `u` goes on as a run from `u`. -/
theorem runsTo_add_iff {m : Nat} {s u : State} (hu : RunsTo m s u) (n : Nat) (t : State) :
    RunsTo (m + n) s t ↔ RunsTo n u t := by
  induction m generalizing s with
  | zero =>
    obtain rfl := (runsTo_zero s u).mp hu
    rw [Nat.zero_add]
  | succ m ih =>
    obtain ⟨v, hstep, hv⟩ := (runsTo_succ m s u).mp hu
    rw [Nat.add_right_comm, runsTo_succ, ← ih hv]
    simp [hstep]

theorem afterWords_concat_of_clear (ws : List InputWord) {w : InputWord} (hw : clear (fieldsOf w) = true)
    (d : Device) : afterWords (ws ++ [w]) d = Device.powerUp := by
  rw [afterWords_append, afterWords_cons, afterWords_nil, edge_of_clear hw]

/-- The state right after a reset word of the script is determined by the environment the run started with: nothing
of the starting device is left in it. -/
theorem runsTo_of_script_clear {ws rest : List InputWord} {w : InputWord} (hw : clear (fieldsOf w) = true)
    {s : State} (h : s.env.script = ws ++ w :: rest) :
    RunsTo (ws.length + 1) s
      { dev := Device.powerUp
        env := { lines := fieldsOf w, script := rest, ticks := s.env.ticks + (ws.length + 1) } } := by
  have hrun := runsTo_of_script (ws ++ [w]) rest (s := s) (by rw [h, List.append_cons])
  rw [afterWords_concat_of_clear ws hw] at hrun
  simpa using hrun

/-- Settles O44: by `runsTo_of_script_clear` both runs pass through the same state right after the reset word, and
from one state a run of `k` ticks has one end. -/
theorem resetDiscardsEverything : Obligations.ResetDiscardsEverything := by
  intro s s' t t' ws rest w k henv hscript hw hrun hrun'
  have hclear := (clear_fieldsOf_iff w).mpr hw
  have hreset := runsTo_of_script_clear hclear hscript
  have hreset' := runsTo_of_script_clear hclear (henv ▸ hscript)
  rw [← henv] at hreset'
  have hafter := (runsTo_add_iff hreset k t).mp hrun
  have hafter' := (runsTo_add_iff hreset' k t').mp hrun'
  refine ⟨runsTo_unique hafter hafter', ?powerUp⟩
  case powerUp =>
    rintro rfl
    rw [← (runsTo_zero _ t).mp hafter, powerUp_eq]

end Sys2Proof.Machine

namespace Sys2Proof.Machine

/-! ### Resets and lost requests (R165, R172, R174) -/

/-- Settles O38: `edge_of_clear` for a tick with a clear; without one the FSM is in Idle only if it was there. -/
theorem noPartialReset : Obligations.NoPartialReset := by
  intro s t h
  rw [dev_of_step h]
  refine ⟨fun hc => edge_of_clear hc s.dev, fun hidle hs => ?onlyClear⟩
  case onlyClear =>
    by_contra hc
    exact hs (eq_idle_of_nextState_eq_idle (Bool.eq_false_of_not_eq_true hc) hidle)

/-- Settles O40: a request the FSM does not listen to leaves the next control state of HOLD, and a reset is the forced
reset whatever its ignored bits. -/
theorem lostRequests : Obligations.LostRequests := by
  refine ⟨fun s hr => ?stop, fun s hr => ?start, fun _ _ _ _ => rfl, fun _ _ _ => rfl⟩
  case stop =>
    exact exec_eq_of_nextState_eq rfl rfl ((nextState_stop_of_not_running hr).trans (nextState_hold _).symm)
  case start =>
    refine exec_eq_of_nextState_eq rfl rfl ?_
    rw [nextState_inputsOf_start, nextState_hold, hr]

/-- Settles O43: a tick with a clear has no carry and ends in the power-up device. -/
theorem clearBeatsCarry : Obligations.ClearBeatsCarry := by
  intro i y hc
  obtain ⟨-, noCarry, -, -⟩ := recordOf_of_clear hc ⟨.running, 59, y⟩
  exact ⟨noCarry, edge_of_clear hc _⟩

/-! ### A Running episode (R170) -/

/-- The tick that enters Running, by START or STARTSTOP, is not counted. -/
theorem edge_of_start_of_not_running {a : InputWord} (ha : a = 0x2 ∨ a = 0x3) {d : Device}
    (hr : d.state ≠ .running) :
    (edge (fieldsOf a) d).state = .running ∧ elapsed (edge (fieldsOf a) d) = elapsed d := by
  have hc : clear (fieldsOf a) = false := by obtain rfl | rfl := ha <;> rfl
  refine ⟨?state, elapsed_edge_of_not_running hr hc⟩
  case state =>
    obtain rfl | rfl := ha
    · exact nextState_start d.state
    · exact (nextState_startstop_of_not_running hr).trans (nextState_start d.state)

/-- The tick that leaves Running, by STOP or STARTSTOP, is counted. -/
theorem edge_of_stop_of_running {b : InputWord} (hb : b = 0x1 ∨ b = 0x3) {d : Device} (hr : d.state = .running) :
    (edge (fieldsOf b) d).state = .paused ∧ elapsed (edge (fieldsOf b) d) = (elapsed d + 1) % 15360 := by
  have hc : clear (fieldsOf b) = false := by obtain rfl | rfl := hb <;> rfl
  refine ⟨?state, elapsed_edge_of_running hr hc⟩
  case state =>
    rw [edge_state, hr]
    obtain rfl | rfl := hb <;> rfl

/-- Continuous counting adds one for each tick (R110). -/
theorem elapsed_afterWords_of_hold_or_start {ws : List InputWord} (hws : ∀ w ∈ ws, w = 0x0 ∨ w = 0x2)
    {d : Device} (hr : d.state = .running) :
    elapsed (afterWords ws d) = (elapsed d + ws.length) % 15360 := by
  induction ws generalizing d with
  | nil => exact (Nat.mod_eq_of_lt (elapsed_lt d)).symm
  | cons w ws ih =>
    obtain ⟨hw, hrest⟩ := List.forall_mem_cons.mp hws
    rw [afterWords_cons, ih hrest (edge_state_of_hold_or_start hw hr),
      elapsed_edge_of_running hr (clear_of_hold_or_start hw), Nat.mod_add_mod, List.length_cons,
      Nat.add_assoc, Nat.add_comm 1]

/-- Settles O35: `runsTo_of_script` along the three parts of the script, each counted by its own lemma. -/
theorem enableLagsOneTick : Obligations.EnableLagsOneTick := by
  intro s a b ws rest hs ha hb hws hscript
  obtain ⟨enters, entering_elapsed⟩ := edge_of_start_of_not_running ha hs
  have stays := afterWords_state_of_hold_or_start hws enters
  have staying_elapsed := elapsed_afterWords_of_hold_or_start hws enters
  obtain ⟨leaves, leaving_elapsed⟩ := edge_of_stop_of_running hb stays
  rw [entering_elapsed] at staying_elapsed
  rw [staying_elapsed, Nat.mod_add_mod] at leaving_elapsed
  exact ⟨_, _, _, runsTo_of_script [a] (ws ++ b :: rest) hscript, runsTo_of_script ws (b :: rest) rfl,
    runsTo_of_script [b] rest rfl, enters, entering_elapsed, stays, staying_elapsed, leaves, leaving_elapsed, rfl⟩

/-! ### The silent wrap (R175) -/

/-- The elapsed count holds both counters: with the control state it is the whole device. -/
theorem eq_of_state_eq_of_elapsed_eq {d e : Device} (hstate : d.state = e.state) (h : elapsed d = elapsed e) :
    d = e := by
  have hd := d.seconds.isLt
  have he := e.seconds.isLt
  unfold elapsed at h
  have hseconds : d.seconds = e.seconds := Fin.ext (by omega)
  have hminutes : d.minutes = e.minutes := BitVec.eq_of_toNat_eq (by omega)
  exact (Device.mk.injEq ..).mpr ⟨hstate, hseconds, hminutes⟩

/-- Settles O37: the run keeps Running, and 15360 counts modulo 15360 leave the elapsed count. -/
theorem silentMinuteWrap : Obligations.SilentMinuteWrap := by
  intro s ws rest hr hlen hws hscript
  have hstate : (afterWords ws s.dev).state = s.dev.state :=
    (afterWords_state_of_hold_or_start hws hr).trans hr.symm
  have helapsed : elapsed (afterWords ws s.dev) = elapsed s.dev := by
    rw [elapsed_afterWords_of_hold_or_start hws hr, hlen, Nat.add_mod_right, Nat.mod_eq_of_lt (elapsed_lt s.dev)]
  rw [← hlen]
  exact ⟨_, runsTo_of_script ws rest hscript, eq_of_state_eq_of_elapsed_eq hstate helapsed⟩

/-! ### Held inputs (R171, R173) -/

/-- The last tick of a held word. -/
theorem afterWords_replicate_succ (n : Nat) (w : InputWord) (d : Device) :
    afterWords (List.replicate (n + 1) w) d = edge (fieldsOf w) (afterWords (List.replicate n w) d) := by
  rw [List.replicate_succ', afterWords_append, afterWords_cons, afterWords_nil]

/-- Only the first tick of a stop held from Running acts. -/
theorem afterWords_replicate_stop {d : Device} (hr : d.state = .running) (n : Nat) :
    afterWords (List.replicate (n + 1) 0x1) d = edge (fieldsOf 0x1) d := by
  obtain ⟨paused, -⟩ := edge_of_stop_of_running (.inl rfl) hr
  rw [List.replicate_succ, afterWords_cons]
  exact afterWords_eq_self_of_hold_or_stop (fun _ hw => .inr (List.eq_of_mem_replicate hw)) paused

/-- Settles O39: the last tick of a held start or reset decides, of a held stop the first; after the word 3 the device
is Running again, so the stop still held acts once more. -/
theorem heldInputs : Obligations.HeldInputs := by
  refine fun n d => ⟨?start, fun hr => ?stop, fun w hw => ?reset, fun hp => ?resumed⟩
  case start =>
    rw [afterWords_replicate_succ]
    exact nextState_start _
  case stop =>
    rw [afterWords_replicate_stop hr]
    exact (edge_of_stop_of_running (.inl rfl) hr).1
  case reset =>
    rw [afterWords_replicate_succ]
    exact edge_of_clear ((clear_fieldsOf_iff w).mpr hw) _
  case resumed =>
    obtain ⟨resumes, not_counted⟩ := edge_of_start_of_not_running (a := 0x3) (.inr rfl) (d := d) (by simp [hp])
    rw [afterWords_cons, afterWords_cons, afterWords_replicate_stop resumes, ← not_counted]
    exact ⟨resumes, edge_of_stop_of_running (.inl rfl) resumes⟩

/-- Settles O42, by induction on the ticks: after an odd number of them the device is Running and the next tick is a
counted stop, otherwise the next tick is a start, which is not counted. -/
theorem startstopAlternates : Obligations.StartstopAlternates := by
  intro n d hidle
  induction n with
  | zero => exact ⟨hidle, (Nat.mod_eq_of_lt (elapsed_lt d)).symm⟩
  | succ n ih =>
    obtain ⟨hstate, helapsed⟩ := ih
    rw [afterWords_replicate_succ]
    by_cases hodd : n % 2 = 1
    · have running : (afterWords (List.replicate n 0x3) d).state = .running := by
        rw [hstate, if_neg (by omega), if_pos hodd]
      obtain ⟨paused, stop_counted⟩ := edge_of_stop_of_running (.inr rfl) running
      rw [paused, stop_counted, helapsed, if_neg (by omega), if_neg (by omega)]
      exact ⟨rfl, by omega⟩
    · have not_running : (afterWords (List.replicate n 0x3) d).state ≠ .running := by
        rw [hstate, if_neg hodd]
        split <;> decide
      obtain ⟨running, not_counted⟩ := edge_of_start_of_not_running (.inr rfl) not_running
      rw [running, not_counted, helapsed, if_neg (by omega), if_pos (by omega)]
      exact ⟨rfl, by omega⟩

end Sys2Proof.Machine
